-- ==== Sys2Proof/Word.lean ====
section
/-! DEFINITION. The words of the block (spec 00_scope.md R6): 16-bit drive words, 32-bit command and response words. -/

namespace Sys2Proof

/-- A drive word: a ROM entry, a buffer entry, the transmission word, the chain (R4 `WW`, R6). Bit 15 is the most significant. -/
abbrev Word := BitVec 16

/-- A command word or a response word of the host port (R98, R106). -/
abbrev HostWord := BitVec 32

end Sys2Proof
end

