-- ==== Sys2Proof/Syntax.lean ====
section
/-! DEFINITION. The operations of the block (spec 30_encoding.md R100, R102): one constructor per row of the opcode map,
and what can arrive at the block from outside. -/

namespace Sys2Proof

/-- The twelve operations of R100. Indices and bit positions are plain numbers (R99: "an unsigned number 0..15 with no
scaling"); `Instr.wellFormed` says that they fit their fields. The 16-bit immediates are words. -/
inductive Instr where
  /-- `WRBUF p, w` (R150). -/
  | wrbuf (p : Nat) (w : Word)
  /-- `RDSEG d` (R125). -/
  | rdseg (d : Nat)
  /-- `DI` (R215). -/
  | di
  /-- `EI` (R216). -/
  | ei
  /-- `START` (R213). -/
  | start
  /-- `STOP` (R214). -/
  | stop
  /-- `QRATE` (R217). -/
  | qrate
  /-- `CFGSEL p, m` (R122). -/
  | cfgsel (p : Nat) (m : Word)
  /-- `CFGSTK s, k` (R123). -/
  | cfgstk (s : Nat) (k : Nat)
  /-- `BUILD` (R124). -/
  | build
  /-- The event `TICK` (R180). -/
  | tick
  /-- The event `TCLK` (R210). -/
  | tclk
deriving DecidableEq, Repr

/-- What the environment does at one operation boundary (R70, R98, R102): the host issues a command word, a `TICK` is
placed there (it occurs only if its start condition holds, R180), or the prescaled timer clock counts once. -/
inductive Input where
  | command (w : HostWord)
  | tick
  | tclk
deriving DecidableEq, Repr

/-- The host issued this input (the two events are not the host's, R102). -/
def Input.isCommand : Input → Bool
  | .command _ => true
  | .tick => false
  | .tclk => false

/-- The operation is one of the ten host commands (R100), not one of the two events (R102). -/
def Instr.isHostOp : Instr → Bool
  | .wrbuf _ _ => true
  | .rdseg _ => true
  | .di => true
  | .ei => true
  | .start => true
  | .stop => true
  | .qrate => true
  | .cfgsel _ _ => true
  | .cfgstk _ _ => true
  | .build => true
  | .tick => false
  | .tclk => false

end Sys2Proof
end

