-- ==== Sys2Proof/Config.lean ====
section
/-! DEFINITION. The configuration of the block (spec 00_scope.md R4), the reference configuration, and the free values:
what the spec leaves open, as constants without a body. -/

namespace Sys2Proof

/-- The seven stroke lines of a digit (R120): names of seven configuration entries. -/
inductive Stroke where
  | a | b | c | d | e | f | g
deriving DecidableEq, Repr

/-- The stroke selector of `CFGSTK` (R104, R123): A..G are 0..6. -/
def Stroke.index : Stroke → Fin 8
  | .a => 0
  | .b => 1
  | .c => 2
  | .d => 3
  | .e => 4
  | .f => 5
  | .g => 6

/-- All seven strokes. -/
def Stroke.all : List Stroke := [.a, .b, .c, .d, .e, .f, .g]

/-- How a decimal-point position is read (R4 `DP_INDEXING`, R157). -/
inductive DpIndexing where
  | absolute
  | panelRelative
deriving DecidableEq, Repr

/-- The three pin identifiers of the data, shift-clock and latch-clock lines (R4 "pins", R252): names that are compared
and never computed with. DESIGN CHOICE (log 19). -/
structure Pins where
  data : Nat
  sclk : Nat
  latch : Nat
deriving DecidableEq, Repr

/-- The parameters of R4 that are not fixed. `N` is the number of select masks (`Config.n`) and `NGLYPH` the number of
glyph rows (`Config.nglyph`): both tables have exactly one entry per position and per digit value (R4, R5 d). -/
structure Config where
  /-- `SEL[0..N-1]`. -/
  sel : List Word
  /-- `STK[A..G]`. -/
  stk : Vector (BitVec 4) 7
  /-- `DPPOS`. -/
  dppos : BitVec 4
  /-- `GLYPH[0..NGLYPH-1]`: the strokes lit for each digit value (R121). -/
  glyph : List (List Stroke)
  /-- `RELOAD`, 0..255. -/
  reload : BitVec 8
  /-- `PRESCALER`. -/
  prescaler : Nat
  /-- `F_CLOCK` in Hz. -/
  fClock : Nat
  /-- `VALW`: the width of the value operand of a render. -/
  valw : Nat
  /-- `DP_INDEXING`. -/
  dpIndexing : DpIndexing
  /-- `DP_LIT_LEVEL`: the line level at which the point is lit. -/
  dpLitLevel : Bool
  /-- The three pin identifiers. -/
  pins : Pins
deriving DecidableEq, Repr

/-- `N`, the number of digit positions (R4). -/
def Config.n (c : Config) : Nat := c.sel.length

/-- `NGLYPH`, the number of entries of the segment table (R4). -/
def Config.nglyph (c : Config) : Nat := c.glyph.length

/-- `WRAP`, the range of the timer counter, fixed (R4, R31). -/
def wrap : Nat := 256

/-- The reset draw of `BUF[p]`: unspecified, any word, independently per entry (R46, U10). Free value (log 2). -/
opaque Config.bufAtReset : Nat → Word

/-- The reset draw of `WORD` (R46, U11). Free value (log 2). -/
opaque Config.wordAtReset : Word

/-- The reset draw of `SR` (R46, U12). Free value (log 2). -/
opaque Config.srAtReset : Word

/-- The reset draw of `Q` (R46, U12). Free value (log 2). -/
opaque Config.qAtReset : Word

/-- The open parameter `DP_LIT_LEVEL` in the reference configuration (R4, D7). Free value (log 20). -/
opaque Config.dpLitLevelOpen : Bool

/-- The response of `QRATE` where R217 states none: the quotient of the two arguments (clock, divisor) does not fit 32
bits, or the divisor is 0, which no legal configuration has. Free value (log 10). -/
opaque Config.unstatedRate : Nat → Nat → HostWord

/-- The glyph table of R121: rows 0, 1 and 8 are the document's, the others conventional. PRESUMED by the spec from
general knowledge (G2, log 13). -/
def Config.referenceGlyphs : List (List Stroke) :=
  [ [.a, .b, .c, .d, .e, .f],
    [.b, .c],
    [.a, .b, .d, .e, .g],
    [.a, .b, .c, .d, .g],
    [.b, .c, .f, .g],
    [.a, .c, .d, .f, .g],
    [.a, .c, .d, .e, .f, .g],
    [.a, .b, .c],
    [.a, .b, .c, .d, .e, .f, .g],
    [.a, .b, .c, .d, .f, .g],
    [.a, .b, .c, .e, .f, .g],
    [.c, .d, .e, .f, .g],
    [.a, .d, .e, .f],
    [.b, .c, .d, .e, .g],
    [.a, .d, .e, .f, .g],
    [.a, .e, .f, .g] ]

/-- The reference configuration of R4 (D4): the spec's choice for examples. DESIGN CHOICE (log 1): `State.reset` is
built from it; every meaning reads the configuration from the state instead. -/
def Config.reference : Config where
  sel := [0x0100#16, 0x0200#16, 0x0400#16, 0x0800#16, 0x1000#16, 0x2000#16, 0x4000#16, 0x8000#16]
  stk := #v[0#4, 1#4, 2#4, 3#4, 4#4, 5#4, 6#4]
  dppos := 7#4
  glyph := Config.referenceGlyphs
  reload := 6#8
  prescaler := 64
  fClock := 16000000
  valw := 16
  dpIndexing := .absolute
  dpLitLevel := Config.dpLitLevelOpen
  pins := { data := 0, sclk := 1, latch := 2 }

end Sys2Proof
end

