-- ==== Sys2Proof/WellFormed.lean ====
section
/-! DEFINITION. When an operation fits its encoding (spec 30_encoding.md R98, R99), when a configuration is legal
(00_scope.md R4) and when it is canonical (R5). -/

namespace Sys2Proof

/-- Every operand fits the field that carries it: indices the 4-bit field `a`, the bit position of `CFGSTK` the field
`imm[3:0]` (R98, R99). An index may still be refused when the operation runs (R61). -/
def Instr.wellFormed : Instr → Bool
  | .wrbuf p _ => decide (p < 16)
  | .rdseg d => decide (d < 16)
  | .di => true
  | .ei => true
  | .start => true
  | .stop => true
  | .qrate => true
  | .cfgsel p _ => decide (p < 16)
  | .cfgstk s k => decide (s < 16) && decide (k < 16)
  | .build => true
  | .tick => true
  | .tclk => true

/-- The three pins are distinct (R241 `BadPins`). -/
def Pins.distinct (p : Pins) : Bool :=
  decide (p.data ≠ p.sclk) && decide (p.data ≠ p.latch) && decide (p.sclk ≠ p.latch)

/-- The eight wiring positions, strokes first, then the decimal point. -/
def Config.wiring (c : Config) : Vector (BitVec 4) 8 := c.stk.push c.dppos

/-- The "legal range" column of R4, with the construction premises of R241 (`N >= 1`, distinct pins). -/
def Config.legal (c : Config) : Bool :=
  decide (1 ≤ c.n) && decide (c.n ≤ 16)
  && (decide (c.nglyph = 10) || decide (c.nglyph = 16))
  && decide c.wiring.toList.Nodup
  && decide (1 ≤ c.prescaler) && decide (1 ≤ c.fClock) && decide (1 ≤ c.valw)
  && c.pins.distinct

/-- A mask with exactly one bit set. -/
def oneHot (w : Word) : Bool :=
  decide (((List.range 16).filter fun i => w.getLsbD i).length = 1)

/-- A canonical configuration (R5): (a) one bit per select mask, (b) masks pairwise distinct, (c) the eight wiring
positions pairwise distinct and in no select mask, (d) a glyph for every digit value, which holds by construction. -/
def Config.canonical (c : Config) : Bool :=
  c.sel.all oneHot && decide c.sel.Nodup && decide c.wiring.toList.Nodup
  && c.sel.all fun m => c.wiring.toList.all fun k => !m.getLsbD k.toNat

/-- The three glyph rows that the document gives (R121, D5). -/
def Config.documentedGlyphs (c : Config) : Bool :=
  decide (c.glyph[0]? = some [.a, .b, .c, .d, .e, .f])
  && decide (c.glyph[1]? = some [.b, .c])
  && decide (c.glyph[8]? = some [.a, .b, .c, .d, .e, .f, .g])

end Sys2Proof
end

