-- ==== Sys2Proof/Decode.lean ====
section
/-! DEFINITION. The command word (spec 30_encoding.md R98 to R103): decoder, encoder, and the opcode map as match and
mask rows (R100). -/

namespace Sys2Proof

/-! ## Fields of format H (R98) -/

/-- `op`, bits 31:28. -/
def opField (w : HostWord) : BitVec 4 := w.extractLsb' 28 4

/-- `a`, bits 27:24. -/
def aField (w : HostWord) : BitVec 4 := w.extractLsb' 24 4

/-- `z`, bits 23:16, must be zero. -/
def zField (w : HostWord) : BitVec 8 := w.extractLsb' 16 8

/-- `imm`, bits 15:0. -/
def immField (w : HostWord) : Word := w.extractLsb' 0 16

/-- `imm[15:4]`, which `CFGSTK` requires to be zero (R99). -/
def immHigh (w : HostWord) : BitVec 12 := w.extractLsb' 4 12

/-- `imm[3:0]`, the bit position of `CFGSTK` (R99). -/
def immLow (w : HostWord) : BitVec 4 := w.extractLsb' 0 4

/-! ## Decoder -/

/-- Why a command word is refused; both are `ReservedEncoding` (R101). -/
inductive Reject where
  /-- `op` is 0x0 or 0xB..0xF. Raised by `decode`; safe. -/
  | reservedOpcode
  /-- A must-be-zero field (`z`, an unused `a`, an unused part of `imm`) is not zero. Raised by `decode`; safe. -/
  | nonZeroField
deriving DecidableEq, Repr

/-- The operation, if its must-be-zero bits are zero (R101). -/
def whenZero (zero : Bool) (i : Instr) : Except Reject Instr :=
  if zero then .ok i else .error .nonZeroField

/-- The operation that a command word encodes (R100), or why it is reserved (R101). -/
def decode (w : HostWord) : Except Reject Instr :=
  let a := (aField w).toNat
  let imm := immField w
  let z0 := decide (zField w = 0#8)
  let imm0 := z0 && decide (imm = 0#16)
  let all0 := imm0 && decide (aField w = 0#4)
  match (opField w).toNat with
  | 1 => whenZero z0 (.wrbuf a imm)
  | 2 => whenZero imm0 (.rdseg a)
  | 3 => whenZero all0 .di
  | 4 => whenZero all0 .ei
  | 5 => whenZero all0 .start
  | 6 => whenZero all0 .stop
  | 7 => whenZero all0 .qrate
  | 8 => whenZero z0 (.cfgsel a imm)
  | 9 => whenZero (z0 && decide (immHigh w = 0#12)) (.cfgstk a (immLow w).toNat)
  | 10 => whenZero all0 .build
  | _ => .error .reservedOpcode

/-- The operation that an input stands for: a command word is decoded, an event is its operation (R102). -/
def decodeInput : Input → Except Reject Instr
  | .command w => decode w
  | .tick => .ok .tick
  | .tclk => .ok .tclk

/-! ## Encoder -/

/-- A command word of format H from its fields, `z` zero (R98). -/
def formatH (op a : Nat) (imm : Word) : HostWord :=
  BitVec.ofNat 4 op ++ BitVec.ofNat 4 a ++ 0#8 ++ imm

/-- The input that carries an operation: the command word of R100 for the ten host operations, the event itself for the
two that "no command word encodes" (R102). -/
def encode : Instr → Input
  | .wrbuf p w => .command (formatH 1 p w)
  | .rdseg d => .command (formatH 2 d 0#16)
  | .di => .command (formatH 3 0 0#16)
  | .ei => .command (formatH 4 0 0#16)
  | .start => .command (formatH 5 0 0#16)
  | .stop => .command (formatH 6 0 0#16)
  | .qrate => .command (formatH 7 0 0#16)
  | .cfgsel p m => .command (formatH 8 p m)
  | .cfgstk s k => .command (formatH 9 s (BitVec.ofNat 16 k))
  | .build => .command (formatH 10 0 0#16)
  | .tick => .tick
  | .tclk => .tclk

/-! ## The opcode map as the spec prints it -/

/-- A row of R100: a word selects the row when `word AND mask = pattern`. -/
structure OpcodeRow where
  pattern : HostWord
  mask : HostWord
deriving DecidableEq, Repr

/-- The word selects the row (R100). -/
def OpcodeRow.selects (r : OpcodeRow) (w : HostWord) : Bool := decide (w &&& r.mask = r.pattern)

/-- The ten host rows of R100, in the order of the table. -/
def opcodeMap : List OpcodeRow :=
  [ ⟨0x10000000#32, 0xF0FF0000#32⟩,
    ⟨0x20000000#32, 0xF0FFFFFF#32⟩,
    ⟨0x30000000#32, 0xFFFFFFFF#32⟩,
    ⟨0x40000000#32, 0xFFFFFFFF#32⟩,
    ⟨0x50000000#32, 0xFFFFFFFF#32⟩,
    ⟨0x60000000#32, 0xFFFFFFFF#32⟩,
    ⟨0x70000000#32, 0xFFFFFFFF#32⟩,
    ⟨0x80000000#32, 0xF0FF0000#32⟩,
    ⟨0x90000000#32, 0xF0FFFFF0#32⟩,
    ⟨0xA0000000#32, 0xFFFFFFFF#32⟩ ]

/-! ## The opcode table's numbering -/

/-- The input that a row's bits stand for. The host rows have 32 bits and are command words. The two event rows have one
bit, the level 1 of a request line; both rows have the SAME bits, so that one byte cannot say which of the two is meant:
it is read as the first of them, `TICK`. DESIGN CHOICE (log 9). -/
def tableInput (nbits w : Nat) : Input :=
  if nbits ≤ 8 ∧ w = 1 then .tick else .command (BitVec.ofNat 32 w)

/-- The instruction that the decoder reads from an instruction whose bits are `w`. -/
def decodeTableWord (nbits w : Nat) : Option Instr :=
  match decodeInput (tableInput nbits w) with
  | .ok i => some i
  | .error _ => none

end Sys2Proof
end

