-- ==== Sys2Proof/Machine/Derive.lean ====
section
/-! DEFINITION. The derivation of the encoding tables from select masks, wiring and glyphs (spec 30_encoding.md R90 to
R93, 40_encoding_tables.md R124), used at reset (R46) and by `BUILD`. -/

namespace Sys2Proof.Machine

/-- `ORALL`: the bitwise OR of a family of words, 0x0000 for the empty one (R7). -/
def orAll : List Word → Word
  | [] => 0#16
  | w :: ws => w ||| orAll ws

/-- `bit(k)`: the word with only bit `k` set (R7). -/
def bitMask (k : BitVec 4) : Word := BitVec.twoPow 16 k.toNat

/-- The bit position of a stroke line (R90 `STK[s]`, R124 `STKPOS[s]`). -/
def strokePos (stkpos : Vector (BitVec 4) 8) (s : Stroke) : BitVec 4 := stkpos[s.index]

/-- The bit position of the decimal point, `STKPOS[7]` (R123, R124). -/
def pointPos (stkpos : Vector (BitVec 4) 8) : BitVec 4 := stkpos[7]

/-- The OR of the bits of some strokes: `LIT(d)` when they are `GLYPH[d]` (R90, R124). -/
def strokeBits (stkpos : Vector (BitVec 4) 8) (strokes : List Stroke) : Word :=
  orAll (strokes.map fun s => bitMask (strokePos stkpos s))

/-- `STROKE_ALL`: the seven stroke bits (R124). -/
def strokeAll (stkpos : Vector (BitVec 4) 8) : Word := strokeBits stkpos Stroke.all

/-- The segment pattern of a glyph: a stroke bit is 0 if the stroke is lit, every bit of the segment mask is 1, every
other bit is 0 (R90). -/
def segmentPattern (stkpos : Vector (BitVec 4) 8) (segmask : Word) (lit : List Stroke) : Word :=
  (strokeAll stkpos &&& ~~~(strokeBits stkpos lit)) ||| segmask

/-- Every entry of `SEGROM` (R124). -/
def segmentTable (stkpos : Vector (BitVec 4) 8) (segmask : Word) (glyphs : List (List Stroke)) : List Word :=
  glyphs.map (segmentPattern stkpos segmask)

end Sys2Proof.Machine
end

