-- ==== Sys2Proof/Machine/State.lean ====
section
/-! DEFINITION. The state of the block and of the chain (spec 10_state.md R20), the reasons a step can stop (60_exceptions.md
R240, R241), and the machine right after construction (R46, R270). -/

namespace Sys2Proof.Machine

/-- The phases of an invocation in the fine-grained view (R23). -/
inductive Phase where
  | idle
  | rearm
  | latchLow
  | compose
  | shift
  | latchPulse
  | advance
deriving DecidableEq, Repr

/-- The three output lines (R34). -/
inductive Line where
  | data
  | sclk
  | latch
deriving DecidableEq, Repr

/-- One event of the line trace: a line is driven to a level (R7 `emit`, R191). -/
structure LineEvent where
  line : Line
  level : Bool
deriving DecidableEq, Repr

/-- The levels of the three output lines (R34) and the chain of two shift registers that watches them (R35). -/
structure Wires where
  /-- `DATA`. -/
  data : Bool
  /-- `SCLK`. -/
  sclk : Bool
  /-- `LATCH`. -/
  latch : Bool
  /-- `SR`: the sixteen shift stages; bits 15:8 are the far register (R35, R64). -/
  sr : Word
  /-- `Q`: the sixteen output latches (R35). -/
  q : Word
deriving DecidableEq, Repr

/-- The three address spaces of R60, element-indexed lists of 16-bit words. Canonical form: exactly one entry per index
(log 18). -/
structure Memory where
  /-- `SELROM[0..N-1]`. -/
  selrom : List Word
  /-- `SEGROM[0..NGLYPH-1]`. -/
  segrom : List Word
  /-- `BUF[0..N-1]`. -/
  buf : List Word
deriving DecidableEq, Repr

/-- The name of an address space (R60). -/
inductive Space where
  | selrom
  | segrom
  | buf
deriving DecidableEq, Repr

/-- The canonical form of the memory for a configuration: every space has exactly its configured length (R37 b, c). -/
def Memory.wf (m : Memory) (c : Config) : Bool :=
  decide (m.selrom.length = c.n) && decide (m.segrom.length = c.nglyph) && decide (m.buf.length = c.n)

/-- The complete state (R20). The fields `cfg`, `trace`, `resp` and `inputs` are the model's own. -/
structure State where
  /-- MODEL's own: the configuration (R4), which no step changes. DESIGN CHOICE (log 1). -/
  cfg : Config
  /-- `SELROM`, `SEGROM`, `BUF`. -/
  mem : Memory
  /-- `STKPOS[0..7]`: strokes A..G, then the decimal point. -/
  stkpos : Vector (BitVec 4) 8
  /-- `SEGMASK` as of the last `BUILD`. -/
  segmask : Word
  /-- `DPBIT` as of the last `BUILD`. -/
  dpbit : Word
  /-- `CURSOR` (R21). -/
  cursor : Nat
  /-- `WORD` (R22). -/
  word : Word
  /-- `PHASE` (R23). -/
  phase : Phase
  /-- `BITCNT`: bits still to be shifted, 0..16 (R23). -/
  bitcnt : BitVec 5
  /-- `RUN` (R26). -/
  run : Bool
  /-- `MASK` (R27). -/
  mask : Bool
  /-- `TIF` (R28). -/
  tif : Bool
  /-- `INSVC` (R29). -/
  insvc : Bool
  /-- `TCNT` (R31). -/
  tcnt : BitVec 8
  /-- `DATA`, `SCLK`, `LATCH` and the environment's `SR`, `Q`. -/
  wires : Wires
  /-- MODEL's own: the line trace, oldest event first (R11 a, R191). DESIGN CHOICE (log 7). -/
  trace : List LineEvent
  /-- MODEL's own: the response port since the last command (R106). DESIGN CHOICE (log 6). -/
  resp : Option HostWord
  /-- MODEL's own: what the environment does next (R70, R244, R290). DESIGN CHOICE (log 3). -/
  inputs : List Input
deriving DecidableEq, Repr

/-- The block raises no fault: "The block has no synchronous exception, no cause code, no fault address register and no
error return" (R240). The type has no constructor. Safe. -/
inductive Fault : Type
deriving DecidableEq, Repr

/-- The closed list of reasons of R241, and the one for an operation without a meaning. A refused operation has no next
state and returns nothing (R7, R10). -/
inductive Refusal where
  /-- An arm of `exec` that gives its instruction no meaning yet; none does. Safe. -/
  | notModelled (mnemonic : String)
  /-- Raised by `State.construct` when `N = 0`. Safe. -/
  | zeroPositions
  /-- Raised by `State.construct` when the pin identifiers are not distinct. Safe. -/
  | badPins
  /-- Raised by a render whose base is below 2, above 16 or above `NGLYPH` (R161). Safe. -/
  | baseRange
  /-- Raised by a render whose value is not a natural number below `2^VALW` (R160). Safe. -/
  | negativeValue
  /-- Raised by `RENDER1` and `RENDER2` when `N` is odd (R151). Safe. -/
  | oddPanel
  /-- Raised by `WRBUF`, `CFGSEL`, `RDSEG`, `CFGSTK` on an index outside its range (R61), and by any element access
  outside its space (R7). Safe. -/
  | indexRange
  /-- Raised by `CFGSEL`, `CFGSTK`, `BUILD` while `RUN = 1` (R128). Safe. -/
  | configWhileRunning
  /-- Raised by `START` while `RUN = 1` (R213). Safe. -/
  | alreadyRunning
  /-- Raised by the decoder's caller for a reserved command word (R101). Safe. -/
  | reservedEncoding
deriving DecidableEq, Repr

/-- The refusal is one of the spec's (R241): the block turns the operation away and goes on (R12). -/
def Refusal.isSpecs : Refusal → Bool
  | .notModelled _ => false
  | .zeroPositions => true
  | .badPins => true
  | .baseRange => true
  | .negativeValue => true
  | .oddPanel => true
  | .indexRange => true
  | .configWhileRunning => true
  | .alreadyRunning => true
  | .reservedEncoding => true

/-- The outcome of an operation of this machine. -/
abbrev Answer (σ : Type) := Host.Outcome σ Fault Refusal

/-- What construction leaves unspecified, as a draw (R46: "a free 16-bit value chosen when the run starts"). -/
structure ResetDraw where
  buf : Nat → Word
  word : Word
  sr : Word
  q : Word

/-- The state right after construction with a configuration and a draw: the table of R46. -/
def State.constructed (c : Config) (d : ResetDraw) : State :=
  let segmask := orAll c.sel
  { cfg := c
    mem := { selrom := c.sel
             segrom := segmentTable c.wiring segmask c.glyph
             buf := (List.range c.n).map d.buf }
    stkpos := c.wiring
    segmask := segmask
    dpbit := bitMask (pointPos c.wiring)
    cursor := 0
    word := d.word
    phase := .idle
    bitcnt := 0#5
    run := false
    mask := false
    tif := false
    insvc := false
    tcnt := 0#8
    wires := { data := false, sclk := false, latch := false, sr := d.sr, q := d.q }
    trace := []
    resp := none
    inputs := [] }

/-- Construction (R270) with the two construction-time contract violations of R241. When both hold, `ZeroPositions` is
reported: R245 lets a model report either (DESIGN CHOICE, log 17). -/
def State.construct (c : Config) (d : ResetDraw) : Answer State :=
  if c.n = 0 then .refused .zeroPositions
  else if c.pins.distinct then .next (State.constructed c d)
  else .refused .badPins

/-- The draw of this machine's own reset: free values (log 2). -/
def resetDraw : ResetDraw where
  buf := Config.bufAtReset
  word := Config.wordAtReset
  sr := Config.srAtReset
  q := Config.qAtReset

/-- The machine right after reset: construction with the reference configuration (R4, R46; log 1). -/
def State.reset : State := State.constructed Config.reference resetDraw

end Sys2Proof.Machine
end

