-- ==== Sys2Proof/Machine/Flags.lean ====
section
/-! DEFINITION. The flags (spec 10_state.md R26 to R31, R38): the start condition of the interrupt, the timer expiry, the
register views, the rate. -/

namespace Sys2Proof.Machine

/-- The request line `irq = RUN AND NOT MASK AND TIF AND NOT INSVC` (R102): the start condition of `TICK` (R180, R243). -/
def State.irq (s : State) : Bool := s.run && !s.mask && s.tif && !s.insvc

/-- The count is at `WRAP - 1`: the next one expires (R210, R211). -/
def atWrap (tcnt : BitVec 8) : Bool := decide (tcnt.toNat = wrap - 1)

/-- The count after one count (R8 d, R210): it wraps from `WRAP - 1` to 0. -/
def nextCount (tcnt : BitVec 8) : BitVec 8 := if atWrap tcnt then 0#8 else tcnt + 1#8

/-- `TIF` after one count of a running timer (R211): set at the wrap, otherwise kept. -/
def tifAfterCount (tcnt : BitVec 8) (tif : Bool) : Bool := atWrap tcnt || tif

/-- The divisor of the rate formula, `PRESCALER * N * (WRAP - RELOAD)` (R217). -/
def rateDivisor (c : Config) : Nat := c.prescaler * c.n * (wrap - c.reload.toNat)

/-- The refresh rate (R217): the floor of the quotient, in 32 bits. Where the quotient does not fit 32 bits, or the
divisor is 0, R217 states no value: a free value (DESIGN CHOICE, log 10). -/
def rateResponse (c : Config) : HostWord :=
  if rateDivisor c ≠ 0 ∧ c.fClock / rateDivisor c < 2 ^ 32 then BitVec.ofNat 32 (c.fClock / rateDivisor c)
  else Config.unstatedRate c.fClock (rateDivisor c)

/-- The registers of R30; their numbers are labels, not addresses. -/
inductive ControlReg where
  | ctrl
  | status
  | tcnt
  | reload
  | presc
  | rate
deriving DecidableEq, Repr

/-- The number of a control register (R30). -/
def ControlReg.number : ControlReg → Nat
  | .ctrl => 0
  | .status => 1
  | .tcnt => 2
  | .reload => 3
  | .presc => 4
  | .rate => 5

/-- `CTRL`: bit 0 is `RUN`, bit 1 is `MASK` (R30). -/
def State.ctrl (s : State) : BitVec 2 := BitVec.ofBool s.mask ++ BitVec.ofBool s.run

/-- `STATUS`: bit 0 is `TIF`, bit 1 is `INSVC` (R30). -/
def State.status (s : State) : BitVec 2 := BitVec.ofBool s.insvc ++ BitVec.ofBool s.tif

/-- The value of a control register as a number (R30). No host operation reads it, but for `RATE` through `QRATE`. -/
def State.controlReg (s : State) : ControlReg → Nat
  | .ctrl => s.ctrl.toNat
  | .status => s.status.toNat
  | .tcnt => s.tcnt.toNat
  | .reload => s.cfg.reload.toNat
  | .presc => s.cfg.prescaler
  | .rate => (rateResponse s.cfg).toNat

end Sys2Proof.Machine
end

