-- ==== Sys2Proof/Machine/Operands.lean ====
section
/-! DEFINITION. The operand forms (spec 30_encoding.md R99, 20_memory.md R61): a position, a digit, a stroke selector, a
bit position, and a 16-bit value as a response. -/

namespace Sys2Proof.Machine

/-- A position index is legal when `0 <= p < N` (R61). -/
def positionInRange (c : Config) (p : Nat) : Bool := decide (p < c.n)

/-- A digit index is legal when `0 <= d < NGLYPH` (R61). -/
def digitInRange (c : Config) (d : Nat) : Bool := decide (d < c.nglyph)

/-- A stroke selector is 0..6 for A..G and 7 for the decimal point (R123). -/
def selectorInRange (s : Nat) : Bool := decide (s < 8)

/-- The bit position that `imm[3:0]` carries (R99, R123). -/
def bitPosition (k : Nat) : BitVec 4 := BitVec.ofNat 4 k

/-- `zext_32` of a table entry (R106, R125). -/
def zeroExtended (w : Word) : HostWord := w.setWidth 32

end Sys2Proof.Machine
end

