-- ==== Sys2Proof/Machine/Ops.lean ====
section
/-! DEFINITION. The shared operations: element access, the response port, the lines and the chain, the entry and the
return of the interrupt, the schedule. -/

namespace Sys2Proof.Machine

/-! ## Element access (R7, R60 to R62) -/

/-- The elements of an address space. -/
def Memory.space (m : Memory) : Space → List Word
  | .selrom => m.selrom
  | .segrom => m.segrom
  | .buf => m.buf

/-- The memory with one space replaced. -/
def Memory.withSpace (m : Memory) (sp : Space) (ws : List Word) : Memory :=
  match sp with
  | .selrom => { m with selrom := ws }
  | .segrom => { m with segrom := ws }
  | .buf => { m with buf := ws }

/-- `MemRead(S:i, 2)`: one whole word, nothing when the index is out of range (R7, R61, R62). -/
def State.memRead (s : State) (sp : Space) (i : Nat) : Option Word := (s.mem.space sp)[i]?

/-- The state with element `i` of a space replaced. -/
def State.storeElement (s : State) (sp : Space) (i : Nat) (v : Word) : State :=
  { s with mem := s.mem.withSpace sp ((s.mem.space sp).set i v) }

/-- `MemWrite(S:i, 2, v)`: refused when the index is out of range (R7, R61, R62). -/
def State.memWrite (s : State) (sp : Space) (i : Nat) (v : Word) : Answer State :=
  if i < (s.mem.space sp).length then .next (s.storeElement sp i v) else .refused .indexRange

/-! ## The response port (R7 `resp <- v`, R106) -/

/-- The operation returns a value to the host. -/
def State.respond (s : State) (v : HostWord) : State := { s with resp := some v }

/-- The port carries nothing: so it stands when a command is taken (DESIGN CHOICE, log 6: the spec does not say how long a
response lasts). -/
def State.emptyPort (s : State) : State := { s with resp := none }

/-! ## Lines and chain (R7 `emit`, R185, R188, R189) -/

/-- The chain shifts: `SR <- {SR[14:0], DATA}` (R188). -/
def Wires.shifted (w : Wires) : Word := BitVec.concat (w.sr.extractLsb' 0 15) w.data

/-- A line is driven to a level; the chain reacts to a rising edge of `SCLK` (R188) and of `LATCH` (R189). -/
def Wires.drive (w : Wires) (e : LineEvent) : Wires :=
  match e.line with
  | .data => { w with data := e.level }
  | .sclk => { w with sclk := e.level, sr := if !w.sclk && e.level then w.shifted else w.sr }
  | .latch => { w with latch := e.level, q := if !w.latch && e.level then w.sr else w.q }

/-- The chain after a list of line events. -/
def Wires.replay (w : Wires) : List LineEvent → Wires
  | [] => w
  | e :: es => (w.drive e).replay es

/-- `emit L=b` (R7): the line is driven, the event is appended to the trace, the environment reacts. -/
def State.emit (s : State) (l : Line) (b : Bool) : State :=
  { s with wires := s.wires.drive ⟨l, b⟩, trace := s.trace ++ [⟨l, b⟩] }

/-- One bit transfer (R185). -/
def State.shiftBit (s : State) (b : Bool) : State := ((s.emit .data b).emit .sclk true).emit .sclk false

/-! ## The interrupt (R246, R247) -/

/-- Taking the interrupt: `INSVC <- 1`, `TIF <- 0`; the first step is next (R246, R180 entry). Nothing is saved. -/
def State.takeInterrupt (s : State) : State := { s with insvc := true, tif := false, phase := .rearm }

/-- Returning from it: `INSVC <- 0` (R247, R180 exit). Nothing is restored. -/
def State.returnFromInterrupt (s : State) : State := { s with insvc := false, phase := .idle }

/-! ## The schedule (log 3) -/

/-- An input is taken off the schedule. The response port is cleared when it is a command (R106; log 6). -/
def State.takeInput (s : State) (x : Input) (rest : List Input) : State :=
  { s with inputs := rest, resp := if x.isCommand then none else s.resp }

/-- The request line `irq` at level 1: the start condition of `TICK` (R102). -/
def State.raiseIrq (s : State) : State := { s with run := true, mask := false, tif := true, insvc := false }

/-- The input is the next one, and an event's line is at level 1 (R102; log 9). -/
def State.placeInput (s : State) (x : Input) : State :=
  match x with
  | .command w => { s with inputs := .command w :: s.inputs }
  | .tick => { s.raiseIrq with inputs := .tick :: s.inputs }
  | .tclk => { s with inputs := .tclk :: s.inputs }

end Sys2Proof.Machine
end

