-- ==== Sys2Proof/Machine/Buffer.lean ====
section
/-! DEFINITION. The display buffer's write port (spec 41_buffer_formatter.md R150). -/

namespace Sys2Proof.Machine

/-- `WRBUF p, w` (R150): `BUF[p] <- w`, stored as given, at any `RUN` and `MASK`. -/
def execWrbuf (p : Nat) (w : Word) (s : State) : Answer State :=
  if positionInRange s.cfg p then s.memWrite .buf p w else .refused .indexRange

end Sys2Proof.Machine
end

