-- ==== Sys2Proof/Machine/Scan.lean ====
section
/-! DEFINITION. The scan/refresh engine (spec 42_scan_refresh.md R180 to R187). Each step also moves `PHASE` to the next
one, so that the fine-grained view (Machine/Fine.lean) runs the same definitions. -/

namespace Sys2Proof.Machine

/-- Step 1 (R181): re-arm the timer count, an assignment. -/
def stepRearm (s : State) : State := { s with tcnt := s.cfg.reload, phase := .latchLow }

/-- Step 2 (R182): deassert the latch-clock line. -/
def stepLatchLow (s : State) : State := { s.emit .latch false with phase := .compose }

/-- Step 3 (R183): `WORD <- SELROM[CURSOR] OR NOT16(BUF[CURSOR])`. Nothing when `CURSOR` is outside either space, which
R37 rules out (R61). Sixteen bits are then to be shifted (R23). -/
def stepCompose (s : State) : Option State :=
  match s.memRead .selrom s.cursor, s.memRead .buf s.cursor with
  | some m, some e => some { s with word := m ||| ~~~e, bitcnt := 16#5, phase := .shift }
  | _, _ => none

/-- One bit of step 4 (R184, R185): bit `k` of `WORD` goes out and `k` bits are left; after the last one the latch pulse
is next. -/
def stepShiftOne (s : State) (k : Nat) : State :=
  { s.shiftBit (s.word.getLsbD k) with
    bitcnt := BitVec.ofNat 5 k
    phase := if k = 0 then .latchPulse else .shift }

/-- The remaining bits of step 4, most significant first (R184). -/
def stepShift : Nat → State → State
  | 0, s => s
  | k + 1, s => stepShift k (stepShiftOne s k)

/-- Step 5 (R186): assert, then deassert the latch-clock line. -/
def stepLatchPulse (s : State) : State :=
  { (s.emit .latch true).emit .latch false with phase := .advance }

/-- Step 6 (R187): the cursor advances by one position, modulo N; the invocation returns (R247). -/
def stepAdvance (s : State) : State :=
  { s with cursor := (s.cursor + 1) % s.cfg.n }.returnFromInterrupt

/-- The whole invocation (R180): entry, the six steps, exit. -/
def invocation (s : State) : Answer State :=
  match stepCompose (stepLatchLow (stepRearm s.takeInterrupt)) with
  | some t => .next (stepAdvance (stepLatchPulse (stepShift 16 t)))
  | none => .refused .indexRange

/-- `TICK` (R180): when the start condition holds, one invocation; "when it does not, no TICK occurs" (log 5). -/
def execTick (s : State) : Answer State := if s.irq then invocation s else .next s

end Sys2Proof.Machine
end

