-- ==== Sys2Proof/Machine/Tables.lean ====
section
/-! DEFINITION. The encoding tables (spec 40_encoding_tables.md R122 to R125, R128). -/

namespace Sys2Proof.Machine

/-- `RDSEG d` (R125): the stored entry, at any time; no state changes but the response. -/
def execRdseg (d : Nat) (s : State) : Answer State :=
  if digitInRange s.cfg d then
    match s.memRead .segrom d with
    | some e => .next (s.respond (zeroExtended e))
    | none => .refused .indexRange
  else .refused .indexRange

/-- `CFGSEL p, m` (R122): `SELROM[p] <- m`; the segment table keeps what the last `BUILD` gave. -/
def execCfgsel (p : Nat) (m : Word) (s : State) : Answer State :=
  if s.run then .refused .configWhileRunning
  else if positionInRange s.cfg p then s.memWrite .selrom p m
  else .refused .indexRange

/-- `CFGSTK s, k` (R123): `STKPOS[s] <- k`; the segment table and `DPBIT` keep what the last `BUILD` gave. -/
def execCfgstk (sel k : Nat) (s : State) : Answer State :=
  if s.run then .refused .configWhileRunning
  else if selectorInRange sel then .next { s with stkpos := s.stkpos.setIfInBounds sel (bitPosition k) }
  else .refused .indexRange

/-- `BUILD` (R124): `SEGMASK`, `DPBIT` and every entry of `SEGROM` from the current select masks and stroke positions. -/
def execBuild (s : State) : Answer State :=
  if s.run then .refused .configWhileRunning
  else
    let segmask := orAll s.mem.selrom
    .next { s with
      segmask := segmask
      dpbit := bitMask (pointPos s.stkpos)
      mem := s.mem.withSpace .segrom (segmentTable s.stkpos segmask s.cfg.glyph) }

end Sys2Proof.Machine
end

