-- ==== Sys2Proof/Machine/Timer.lean ====
section
/-! DEFINITION. The timer interface and control (spec 43_timer_control.md R210 to R217). -/

namespace Sys2Proof.Machine

/-- `TCLK` (R210, R211): a running timer counts; its wrap sets `TIF`, and an expiry that finds `TIF` set is lost. A
stopped timer stands still. -/
def execTclk (s : State) : Answer State :=
  if s.run then .next { s with tcnt := nextCount s.tcnt, tif := tifAfterCount s.tcnt s.tif } else .next s

/-- `START` (R213): arm the timer. -/
def execStart (s : State) : Answer State :=
  if s.run then .refused .alreadyRunning
  else .next { s with tcnt := s.cfg.reload, tif := false, run := true }

/-- `STOP` (R214): disable the refresh cycle; a pending expiry is discarded. -/
def execStop (s : State) : Answer State := .next { s with run := false, tif := false }

/-- `DI` (R215): enter a critical section. -/
def execDi (s : State) : Answer State := .next { s with mask := true }

/-- `EI` (R216): leave a critical section, unconditionally. -/
def execEi (s : State) : Answer State := .next { s with mask := false }

/-- `QRATE` (R217): the refresh rate, a function of the configuration only. -/
def execQrate (s : State) : Answer State := .next (s.respond (rateResponse s.cfg))

end Sys2Proof.Machine
end

