-- ==== Sys2Proof/Machine/Dispatch.lean ====
section
/-! DEFINITION. One arm per operation of spec 30_encoding.md R100. -/

namespace Sys2Proof.Machine

def exec (i : Instr) (s : State) : Host.Outcome State Fault Refusal :=
  match i with
  | .wrbuf p w => Sys2Proof.Machine.execWrbuf p w s
  | .rdseg d => Sys2Proof.Machine.execRdseg d s
  | .di => Sys2Proof.Machine.execDi s
  | .ei => Sys2Proof.Machine.execEi s
  | .start => Sys2Proof.Machine.execStart s
  | .stop => Sys2Proof.Machine.execStop s
  | .qrate => Sys2Proof.Machine.execQrate s
  | .cfgsel p m => Sys2Proof.Machine.execCfgsel p m s
  | .cfgstk sel k => Sys2Proof.Machine.execCfgstk sel k s
  | .build => Sys2Proof.Machine.execBuild s
  | .tick => Sys2Proof.Machine.execTick s
  | .tclk => Sys2Proof.Machine.execTclk s

end Sys2Proof.Machine
end

