-- ==== Sys2Proof/Machine/Turn.lean ====
section
/-! DEFINITION. What one turn of the machine does with the input at the head of the schedule (spec 20_memory.md R70,
00_scope.md R10, R12). -/

namespace Sys2Proof.Machine

/-- A refused operation ends nothing: the command is gone, the rest of the state is unchanged and nothing is returned
(R10, R12; log 4). Only an operation without a meaning would stop the machine, and there is none. -/
def afterRefusal (taken : State) (r : Refusal) : Answer State := if r.isSpecs then .next taken else .refused r

/-- The outcome of an operation on the state from which its input was taken. -/
def afterExec (taken : State) : Answer State → Answer State
  | .next t => .next t
  | .fault f => .fault f
  | .refused r => afterRefusal taken r

/-- One input: decoded, run, or turned away as a reserved encoding (R101). -/
def turn (x : Input) (taken : State) : Answer State :=
  match decodeInput x with
  | .ok i => afterExec taken (exec i taken)
  | .error _ => afterRefusal taken .reservedEncoding

/-- The reason for which the next input would be refused, if it would be. -/
def State.headRefusal (s : State) : Option Refusal :=
  match s.inputs with
  | [] => none
  | x :: rest =>
    match decodeInput x with
    | .error _ => some .reservedEncoding
    | .ok i =>
      match exec i (s.takeInput x rest) with
      | .refused r => some r
      | .next _ => none
      | .fault _ => none

end Sys2Proof.Machine
end

