-- ==== Sys2Proof/Machine/Step.lean ====
section
/-! DEFINITION. One step: the next input of the schedule is taken and run; with an empty schedule nothing happens
(spec 20_memory.md R70, 00_scope.md R12; log 3). -/

namespace Sys2Proof.Machine

/-- One step of the machine. -/
def step (s : State) : Host.Outcome State Fault Refusal :=
  match s.inputs with
  | [] => .next s
  | x :: rest => turn x (s.takeInput x rest)

/-- The state with an instruction, given as its opcode-table bits, as its very next input (log 9). -/
def State.withFetchWord (s : State) (nbits w : Nat) : State := s.placeInput (tableInput nbits w)

end Sys2Proof.Machine
end

