-- ==== Sys2Proof/Machine/Fine.lean ====
section
/-! DEFINITION. The fine-grained view of an invocation (spec 10_state.md R23, R25, 42_scan_refresh.md R180): the refresh
state machine, one phase or one bit transfer at a time, over the same step definitions as `TICK`. -/

namespace Sys2Proof.Machine

/-- One move of the refresh state machine: what `PHASE` says, `BITCNT` counting the bits still to be shifted. In `IDLE`
it takes the interrupt when the start condition holds and otherwise rests. -/
def engineMove (s : State) : Answer State :=
  match s.phase with
  | .idle => if s.irq then .next s.takeInterrupt else .next s
  | .rearm => .next (stepRearm s)
  | .latchLow => .next (stepLatchLow s)
  | .compose =>
    match stepCompose s with
    | some t => .next t
    | none => .refused .indexRange
  | .shift => .next (stepShiftOne s (s.bitcnt.toNat - 1))
  | .latchPulse => .next (stepLatchPulse s)
  | .advance => .next (stepAdvance s)

/-- `k` moves, stopping at the first refusal. -/
def engineMoves : Nat → State → Answer State
  | 0, s => .next s
  | k + 1, s =>
    match engineMove s with
    | .next t => engineMoves k t
    | .fault f => .fault f
    | .refused r => .refused r

/-- The moves of one whole invocation: the entry, REARM, LATCH_LOW, COMPOSE, sixteen bits, LATCH_PULSE, ADVANCE. -/
def movesPerInvocation : Nat := 22

end Sys2Proof.Machine
end

