-- ==== Sys2Proof/Machine/Formatter.lean ====
section
/-! DEFINITION. The value formatter (spec 41_buffer_formatter.md R151 to R166, 30_encoding.md R105): host-side
pseudo-operations, each a sequence of `DI`, `RDSEG`, `WRBUF` and `EI`. -/

namespace Sys2Proof.Machine

/-- The three panels of R151: of `RENDER1`, `RENDER2` and `RENDERW`. -/
inductive Panel where
  | first
  | second
  | whole
deriving DecidableEq, Repr

/-- `lo` (R151). -/
def Panel.lo (c : Config) : Panel → Nat
  | .first => 0
  | .second => c.n / 2
  | .whole => 0

/-- `hi` (R151). -/
def Panel.hi (c : Config) : Panel → Nat
  | .first => c.n / 2
  | .second => c.n
  | .whole => c.n

/-- The panel needs an even `N` (R151). -/
def Panel.isHalf : Panel → Bool
  | .first => true
  | .second => true
  | .whole => false

/-- A render: its panel, its value (a host type that can hold a negative one, R160), the decimal-point position or none,
and the base, 10 when omitted (R105, R152). -/
structure RenderCall where
  panel : Panel
  value : Int
  dp : Option Nat := none
  base : Nat := 10
deriving DecidableEq, Repr

/-- The width `W = hi - lo` of the panel (R151, R156). -/
def RenderCall.width (c : Config) (r : RenderCall) : Nat := r.panel.hi c - r.panel.lo c

/-- Why a render is refused before any primitive is issued (R151, R160, R161), in this order (R245; log 17). -/
def RenderCall.refusal (c : Config) (r : RenderCall) : Option Refusal :=
  if r.base < 2 ∨ 16 < r.base ∨ c.nglyph < r.base then some .baseRange
  else if r.value < 0 ∨ (2 : Int) ^ c.valw ≤ r.value then some .negativeValue
  else if r.panel.isHalf ∧ c.n % 2 = 1 then some .oddPanel
  else none

/-- `index(i)` (R152, R157): the buffer index or the index inside the panel. -/
def dpIndex (c : Config) (lo i : Nat) : Nat :=
  match c.dpIndexing with
  | .absolute => i
  | .panelRelative => i - lo

/-- The point is requested at position `i` (R152, R157). -/
def pointAt (c : Config) (lo : Nat) (dp : Option Nat) (i : Nat) : Bool := decide (dp = some (dpIndex c lo i))

/-- The entry written at position `i` for a looked-up pattern (R152): the point is OR'd in after the lookup. -/
def entryAt (s : State) (lo : Nat) (dp : Option Nat) (i : Nat) (pattern : Word) : Word :=
  if pointAt s.cfg lo dp i then pattern ||| s.dpbit else pattern

/-- The outcome of one operation, then of what follows it. -/
def andThen (o : Answer State) (f : State → Answer State) : Answer State :=
  match o with
  | .next s => f s
  | .fault e => .fault e
  | .refused r => .refused r

/-- A list of operations, one after the other: their effects alone. The response port keeps the last response, since
emptying it belongs to the taking of a command (`step`, `issue`; log 6). -/
def execAll : List Instr → State → Answer State
  | [], s => .next s
  | i :: is, s => andThen (exec i s) (execAll is)

/-- One operation issued at the host port: as in `step`, the port is empty when the command is taken (log 6). -/
def issue (i : Instr) (s : State) : Answer State := exec i s.emptyPort

/-- A list of operations issued at the host port, one after the other. -/
def issueAll : List Instr → State → Answer State
  | [], s => .next s
  | i :: is, s => andThen (issue i s) (issueAll is)

/-- The loop of R152 over the positions `lo + count - 1` down to `lo`: look the digit up through the response port, write
the entry. -/
def renderLoop (lo : Nat) (dp : Option Nat) (base : Nat) : Nat → Nat → State → Answer State
  | 0, _, s => .next s
  | k + 1, t, s =>
    andThen (issue (.rdseg (t % base)) s) fun s1 =>
      match s1.resp with
      | some r =>
        andThen (issue (.wrbuf (lo + k) (entryAt s1 lo dp (lo + k) (r.setWidth 16))) s1) fun s2 =>
          renderLoop lo dp base k (t / base) s2
      | none => .refused .indexRange

/-- A render (R152): refused before any primitive, or `DI`, the loop, `EI`, each issued at the host port. The port carries
a pattern only between an `RDSEG` and the `WRBUF` that follows it; after the `EI` it carries nothing, as R165 has a render
return nothing (how long a response lasts is the model's choice, log 6). With `MASK = 1` on entry the render runs too and
leaves `MASK = 0` (log 16). -/
def render (r : RenderCall) (s : State) : Answer State :=
  match r.refusal s.cfg with
  | some e => .refused e
  | none =>
    andThen (issue .di s) fun s1 =>
      andThen (renderLoop (r.panel.lo s.cfg) r.dp r.base (r.width s.cfg) r.value.toNat s1) fun s2 =>
        issue .ei s2

/-- `RENDER1 v, dp, b` (R153). -/
def render1 (v : Int) (dp : Option Nat) (b : Nat) : State → Answer State := render ⟨.first, v, dp, b⟩

/-- `RENDER2 v, dp, b` (R154). -/
def render2 (v : Int) (dp : Option Nat) (b : Nat) : State → Answer State := render ⟨.second, v, dp, b⟩

/-- `RENDERW v, dp, b` (R155). -/
def renderW (v : Int) (dp : Option Nat) (b : Nat) : State → Answer State := render ⟨.whole, v, dp, b⟩

/-! ## The expansion into command words (R105, R152) -/

/-- The operations of the loop, the patterns taken from the segment table of a state; none when a digit has no entry. -/
def loopOperations (s : State) (lo : Nat) (dp : Option Nat) (base : Nat) : Nat → Nat → Option (List Instr)
  | 0, _ => some []
  | k + 1, t =>
    match s.memRead .segrom (t % base), loopOperations s lo dp base k (t / base) with
    | some e, some is => some (.rdseg (t % base) :: .wrbuf (lo + k) (entryAt s lo dp (lo + k) e) :: is)
    | _, _ => none

/-- The operations between the `DI` and the `EI` of a render issued in a state. -/
def renderBody (r : RenderCall) (s : State) : Option (List Instr) :=
  loopOperations s (r.panel.lo s.cfg) r.dp r.base (r.width s.cfg) r.value.toNat

/-- The whole sequence of operations of a render issued in a state: `2 + 2 * (hi - lo)` of them (R152). -/
def renderOperations (r : RenderCall) (s : State) : Option (List Instr) :=
  (renderBody r s).map fun is => .di :: (is ++ [.ei])

/-! ## What a render leaves (R156, R163, R164) -/

/-- The digit at position `i` of a panel that ends at `hi`: `(v div b^(hi-1-i)) mod b` (R156). -/
def digitAt (v base hi i : Nat) : Nat := v / base ^ (hi - 1 - i) % base

/-- The stroke bits that an entry lights: `NOT16(e) AND STROKE_ALL` (R164). -/
def entryLit (s : State) (e : Word) : Word := ~~~e &&& strokeAll s.stkpos

/-- The inverse of the segment map (R164): the first digit value whose stroke bits are those of the entry. -/
def entryDigit (s : State) (e : Word) : Option Nat :=
  s.cfg.glyph.findIdx? fun g => strokeBits s.stkpos g == entryLit s e

end Sys2Proof.Machine
end

