-- ==== Sys2Proof/Machine/Observe.lean ====
section
/-! DEFINITION. What can be observed (spec 00_scope.md R11): the latched words of a line trace, and the visible display
(42_scan_refresh.md R194). -/

namespace Sys2Proof.Machine

/-- The line trace of one `TICK` that sends `word` (R191). -/
def bitTrace (word : Word) : Nat → List LineEvent
  | 0 => []
  | k + 1 => ⟨.data, word.getLsbD k⟩ :: ⟨.sclk, true⟩ :: ⟨.sclk, false⟩ :: bitTrace word k

/-- `LATCH=0`, the sixteen bits, `LATCH=1`, `LATCH=0` (R191). -/
def tickTrace (word : Word) : List LineEvent :=
  ⟨.latch, false⟩ :: (bitTrace word 16 ++ [⟨.latch, true⟩, ⟨.latch, false⟩])

/-- The latched word sequence of a line trace (R11 b, R190): the value of `Q` after each rising edge of `LATCH`. -/
def latchedWords (w : Wires) : List LineEvent → List Word
  | [] => []
  | e :: es =>
    let w' := w.drive e
    if e.line = .latch ∧ e.level ∧ w.latch = false then w'.q :: latchedWords w' es else latchedWords w' es

/-- The next step is an invocation: a `TICK` is next and its start condition holds (R180). -/
def State.ticksNow (s : State) : Bool := decide (s.inputs.head? = some .tick) && s.irq

/-- The invocations among the next `k` steps, oldest first: the states from which they start (R190, R194). -/
def ticking : Nat → State → List State
  | 0, _ => []
  | k + 1, s =>
    match step s with
    | .next t => if s.ticksNow then s :: ticking k t else ticking k t
    | .fault _ => []
    | .refused _ => []

/-- A position is enabled by a word of the chain: its select lines are asserted (R91, R96), whatever else the word
asserts, so that a word may enable several positions (R194 for the word of a pattern; R274, R283, R285, R286). A canonical
mask is one line. DESIGN CHOICE (log 23) for any other mask, on which the spec is silent (R5): a mask of several lines
enables when all of them are asserted, a mask of none never does. -/
def enabledBy (s : State) (q : Word) (p : Nat) : Bool :=
  match s.memRead .selrom p with
  | some m => decide (m ≠ 0#16 ∧ q &&& m = m)
  | none => false

/-- The strokes that a word of the chain drives (R96, R194). -/
def strokesDriven (s : State) (q : Word) : List Stroke :=
  Stroke.all.filter fun x => q.getLsbD (strokePos s.stkpos x).toNat

/-- The level of the decimal-point line, `Q[DPPOS]` (R194). -/
def pointLevel (s : State) (q : Word) : Bool := q.getLsbD (pointPos s.stkpos).toNat

/-- The point is lit: its line is at the level `DP_LIT_LEVEL` (R4, D7, R287). -/
def pointLit (s : State) (q : Word) : Bool := pointLevel s q == s.cfg.dpLitLevel

/-- What one position shows: the strokes and the level of the DP line. -/
structure Shown where
  strokes : List Stroke
  pointLevel : Bool
deriving DecidableEq, Repr

/-- What a position shows under a word of the chain: dark unless it is enabled (R194). -/
def shownBy (s : State) (q : Word) (p : Nat) : Option Shown :=
  if enabledBy s q p then some ⟨strokesDriven s q, pointLevel s q⟩ else none

/-- The visible display at this moment (R194): what each position shows under `Q`. Several positions show the same strokes
when `Q` enables several (R285); before the first `TICK`, `Q` is unspecified (R274). -/
def State.display (s : State) : List (Option Shown) := (List.range s.cfg.n).map (shownBy s s.wires.q)

/-- All that a position shows over a sequence of latched words, oldest first: one entry for each word that enables it.
Several different ones are the superposition of R283. The wiring is that of the given state (log 23). -/
def shownDuring (s : State) (p : Nat) (words : List Word) : List Shown := words.filterMap fun q => shownBy s q p

/-- The displayed glyph of a position (R194): what it showed when a word of the sequence last enabled it, if one did. -/
def lastShown (s : State) (p : Nat) (words : List Word) : Option Shown := (shownDuring s p words).getLast?

end Sys2Proof.Machine
end

