-- ==== Sys2Proof/Safety.lean ====
section
/-! DEFINITION. What counts as a sound state and a safe run (spec 10_state.md R37, 60_exceptions.md R241). -/

namespace Sys2Proof.Machine

/-- The arrays have their configured lengths and the cursor is a position (R37 a, b, c). -/
abbrev State.Shaped (s : State) : Prop :=
  s.cfg.legal = true ∧ s.mem.wf s.cfg = true ∧ s.cursor < s.cfg.n

/-- No invocation is in progress (R37 d). -/
abbrev State.Resting (s : State) : Prop :=
  s.insvc = false ∧ s.phase = .idle ∧ s.bitcnt = 0#5 ∧ s.wires.sclk = false ∧ s.wires.latch = false

/-- The segment table holds the segment mask (R37 e, the part that no later `CFGSEL` can break). -/
abbrev State.TableMasked (s : State) : Prop :=
  (s.mem.segrom.all fun e => decide (e &&& s.segmask = s.segmask)) = true

/-- A pending expiry belongs to an armed timer (R37 f). -/
abbrev State.PendingArmed (s : State) : Prop := s.tif = true → s.run = true

/-- The invariant of R37 at operation boundaries. -/
abbrev State.Inv (s : State) : Prop := s.Shaped ∧ s.Resting ∧ s.TableMasked ∧ s.PendingArmed

/-- The tables are those of the current wiring and select masks: as after a `BUILD` with no later `CFGSEL` or `CFGSTK`
(R37 e, R127). -/
abbrev State.TablesCurrent (s : State) : Prop :=
  s.segmask = orAll s.mem.selrom ∧ s.dpbit = bitMask (pointPos s.stkpos) ∧
    s.mem.segrom = segmentTable s.stkpos s.segmask s.cfg.glyph

/-- The wiring that the block now has is canonical (R5), for its current select masks and stroke positions. -/
abbrev State.Canonical (s : State) : Prop :=
  s.mem.selrom.all oneHot = true ∧ s.mem.selrom.Nodup ∧ s.stkpos.toList.Nodup ∧
    (s.mem.selrom.all fun m => s.stkpos.toList.all fun k => !m.getLsbD k.toNat) = true

/-- `k` steps, stopping at the first fault or refusal: a finite prefix of an execution (R12). -/
def steps : Nat → State → Answer State
  | 0, s => .next s
  | k + 1, s => andThen (step s) (steps k)

/-- A safe step: the next input, if there is one, is not turned away. -/
def State.safeNow (s : State) : Bool := s.headRefusal.isNone

/-- A safe run of `k` steps: no operation of it is refused. -/
def State.safeFor : Nat → State → Bool
  | 0, _ => true
  | k + 1, s =>
    s.safeNow &&
      match step s with
      | .next t => State.safeFor k t
      | .fault _ => false
      | .refused _ => false

end Sys2Proof.Machine
end

