-- ==== Sys2Proof/Certificates/Slice0/Obligations.lean ====
section
/-! DEFINITION. The statements about this model, for the provers. Each docstring names the rule of spec/ or the section it rests on. -/

open Sys2Proof Sys2Proof.Machine

/-! ## Encoding -/

/-- 30_encoding.md sections 3 and 4: no bit of an encoding is dropped. -/
def Obligations.DecodeOfEncodeGivesTheOperation : Prop :=
  ∀ i : Instr, i.wellFormed = true → decodeInput (encode i) = .ok i

/-- 30_encoding.md sections 3 to 5: a command word has at most one meaning, and it is the encoding of it. -/
def Obligations.EncodeOfDecodeGivesTheInput : Prop :=
  ∀ (x : Input) (i : Instr), decodeInput x = .ok i → i.wellFormed = true ∧ encode i = x

/-- 30_encoding.md section 5 (R101): a command word that matches no row of R100 is refused, and which words these are. The
last clause, that the step drops the command, leaves the rest of the state and empties the response port, is the model's
choice (logs 4 and 6). -/
def Obligations.ReservedEncodingsAreRefused : Prop :=
  (∀ w : HostWord, (∃ i, decode w = .ok i) ↔ ∃ r ∈ opcodeMap, r.selects w = true) ∧
  (∀ w : HostWord,
    (opField w = 0#4 ∨ 11 ≤ (opField w).toNat ∨ zField w ≠ 0#8 ∨
      (opField w ≠ 1#4 ∧ opField w ≠ 8#4 ∧ opField w ≠ 9#4 ∧ immField w ≠ 0#16) ∨
      (opField w = 9#4 ∧ immHigh w ≠ 0#12) ∨
      (opField w ≠ 1#4 ∧ opField w ≠ 2#4 ∧ opField w ≠ 8#4 ∧ opField w ≠ 9#4 ∧ aField w ≠ 0#4)) ↔
    ∃ e, decode w = .error e) ∧
  (∀ (s : State) (w : HostWord) (e : Reject) (rest : List Input),
    decode w = .error e → s.inputs = .command w :: rest →
    s.headRefusal = some .reservedEncoding ∧ step s = .next { s with inputs := rest, resp := none })

/-- 30_encoding.md section 4: no two rows of the opcode map select the same word. -/
def Obligations.OpcodeRowsDoNotOverlap : Prop :=
  ∀ (w : HostWord) (r₁ r₂ : OpcodeRow), r₁ ∈ opcodeMap → r₂ ∈ opcodeMap →
    r₁.selects w = true → r₂.selects w = true → r₁ = r₂

/-- 30_encoding.md section 4: words written out from the encodings of R100. -/
def Obligations.SampleWordsDecode : Prop :=
  decode 0x1300FF24#32 = .ok (.wrbuf 3 0xFF24#16) ∧ decode 0x22000000#32 = .ok (.rdseg 2) ∧
  decode 0x30000000#32 = .ok .di ∧ decode 0x50000000#32 = .ok .start ∧
  decode 0x87008000#32 = .ok (.cfgsel 7 0x8000#16) ∧ decode 0x9600000E#32 = .ok (.cfgstk 6 14) ∧
  decode 0xA0000000#32 = .ok .build ∧ decode 0x00000000#32 = .error .reservedOpcode

/-! ## The step -/

/-- 20_memory.md section 5, 00_scope.md section 6: the next input of the schedule is decoded and run on the state from which
it was taken. Two clauses are the model's choice: that taking a command empties the response port (log 6), and that a
refusal answers the state from which the command was taken (log 4). -/
def Obligations.StepRunsTheDecodedOperation : Prop :=
  ∀ (s : State) (x : Input) (rest : List Input) (i : Instr),
    s.inputs = x :: rest → decodeInput x = .ok i →
    i.wellFormed = true ∧
    (s.takeInput x rest = { s with inputs := rest, resp := if x.isCommand then none else s.resp }) ∧
    (∀ t, exec i (s.takeInput x rest) = .next t → step s = .next t) ∧
    (∀ r, exec i (s.takeInput x rest) = .refused r → step s = .next (s.takeInput x rest))

/-- The model's choice (log 3): with nothing scheduled a step rests. -/
def Obligations.EmptyScheduleRests : Prop :=
  ∀ s : State, s.inputs = [] → ∀ k, steps k s = .next s

/-- 00_scope.md section 6 (R10, R12): the block never stops; every prefix of an execution goes on. -/
def Obligations.ExecutionNeverStops : Prop :=
  ∀ (k : Nat) (s : State), ∃ t, steps k s = .next t

/-- 00_scope.md section 6 (R10, R12): a refused operation changes nothing and returns nothing. That the step drops it is the
model's reading (log 4), that the port is then empty its choice (log 6). -/
def Obligations.RefusedOperationChangesNothing : Prop :=
  ∀ (s : State) (r : Refusal), s.Inv → s.headRefusal = some r →
    step s = .next { s with inputs := s.inputs.tail, resp := none }

/-! ## Invariants and reset -/

/-- 10_state.md section 8 (R37): every step keeps the invariant, from every state that has it. -/
def Obligations.StepKeepsInvariant : Prop :=
  ∀ s t : State, s.Inv → step s = .next t → t.Inv ∧ t.cfg = s.cfg

/-- 10_state.md sections 8 and 9: the invariant holds at reset. -/
def Obligations.ResetHasInvariant : Prop := State.reset.Inv

/-- 10_state.md sections 8 and 9: it holds after construction with any legal configuration and any draw. -/
def Obligations.ConstructionHasInvariant : Prop :=
  ∀ (c : Config) (d : ResetDraw), c.legal = true → (State.constructed c d).Inv ∧ (State.constructed c d).TablesCurrent

/-- R46: the reset values, for every legal configuration; what is unspecified can be any value; the tables are what `BUILD`
gives from the reset select masks and stroke positions. -/
def Obligations.ConstructionGivesTheResetValues : Prop :=
  ∀ c : Config, c.legal = true →
    (∀ d : ResetDraw, ∃ s, State.construct c d = .next s ∧ s.cfg = c ∧
      s.mem.selrom = c.sel ∧
      (∀ x : Stroke, strokePos s.stkpos x = (c.stk.toList)[x.index.val]?.getD 0#4) ∧ pointPos s.stkpos = c.dppos ∧
      exec .build s = .next s ∧
      s.cursor = 0 ∧ s.phase = .idle ∧ s.bitcnt = 0#5 ∧ s.run = false ∧ s.mask = false ∧ s.tif = false ∧
      s.insvc = false ∧ s.tcnt = 0#8 ∧ s.wires.data = false ∧ s.wires.sclk = false ∧ s.wires.latch = false) ∧
    (∀ (ws : List Word) (word sr q : Word), ws.length = c.n →
      ∃ (d : ResetDraw) (s : State), State.construct c d = .next s ∧
        s.mem.buf = ws ∧ s.word = word ∧ s.wires.sr = sr ∧ s.wires.q = q)

/-- 60_exceptions.md section 1 (R241): the two construction-time contract violations. That `ZeroPositions` is the reason when
both hold is the model's choice (log 17), and that `BadPins` means coinciding pins is too (log 19). -/
def Obligations.ConstructionRefusals : Prop :=
  ∀ (c : Config) (d : ResetDraw),
    (c.n = 0 → State.construct c d = .refused .zeroPositions) ∧
    (c.n ≠ 0 → c.pins.distinct = false → State.construct c d = .refused .badPins)

/-! ## Buffer and tables -/

/-- R150: `BUF[p] <- w`, at any `RUN` and `MASK`; nothing else changes; refused out of range. -/
def Obligations.WrbufWritesOneEntry : Prop :=
  ∀ (s : State) (p : Nat) (w : Word), s.Shaped →
    (s.cfg.n ≤ p → exec (.wrbuf p w) s = .refused .indexRange) ∧
    (p < s.cfg.n → ∃ t, exec (.wrbuf p w) s = .next t ∧ t = { s with mem := t.mem } ∧
      t.memRead .buf p = some w ∧
      (∀ (sp : Space) (j : Nat), sp ≠ .buf ∨ j ≠ p → t.memRead sp j = s.memRead sp j))

/-- R125: the stored entry, zero-extended, at any time; no state but the response changes; refused out of range. -/
def Obligations.RdsegReturnsTheStoredEntry : Prop :=
  ∀ (s : State) (d : Nat), s.Shaped →
    (s.cfg.nglyph ≤ d → exec (.rdseg d) s = .refused .indexRange) ∧
    (d < s.cfg.nglyph → ∃ e, s.memRead .segrom d = some e ∧
      exec (.rdseg d) s = .next { s with resp := some (0#16 ++ e) })

/-- R122: `SELROM[p] <- m` while stopped; nothing else changes; the refusals in the order of the pseudocode. -/
def Obligations.CfgselSetsOneMask : Prop :=
  ∀ (s : State) (p : Nat) (m : Word), s.Shaped →
    (s.run = true → exec (.cfgsel p m) s = .refused .configWhileRunning) ∧
    (s.run = false → s.cfg.n ≤ p → exec (.cfgsel p m) s = .refused .indexRange) ∧
    (s.run = false → p < s.cfg.n → ∃ t, exec (.cfgsel p m) s = .next t ∧ t = { s with mem := t.mem } ∧
      t.memRead .selrom p = some m ∧
      (∀ (sp : Space) (j : Nat), sp ≠ .selrom ∨ j ≠ p → t.memRead sp j = s.memRead sp j))

/-- R123: `STKPOS[s] <- k` while stopped, for every selector 0..7 and every bit position 0..15; nothing else changes. -/
def Obligations.CfgstkSetsOnePosition : Prop :=
  ∀ (s : State) (sel k : Nat), k < 16 →
    (s.run = true → exec (.cfgstk sel k) s = .refused .configWhileRunning) ∧
    (s.run = false → 8 ≤ sel → exec (.cfgstk sel k) s = .refused .indexRange) ∧
    (s.run = false → sel < 8 → ∃ t, exec (.cfgstk sel k) s = .next t ∧ t = { s with stkpos := t.stkpos } ∧
      ∀ j : Fin 8, (j.val = sel → (t.stkpos[j]).toNat = k) ∧ (j.val ≠ sel → t.stkpos[j] = s.stkpos[j]))

/-- R124: the derived tables by the formula, properties (a) and (b), and the frame; refused while running. -/
def Obligations.BuildDerivesTheTables : Prop :=
  ∀ s : State,
    (s.run = true → exec .build s = .refused .configWhileRunning) ∧
    (s.run = false → ∃ t, exec .build s = .next t ∧
      t = { s with mem := t.mem, segmask := t.segmask, dpbit := t.dpbit } ∧
      t.segmask = orAll s.mem.selrom ∧ t.dpbit = BitVec.twoPow 16 (s.stkpos[7]).toNat ∧
      t.mem.segrom.length = s.cfg.nglyph ∧
      (∀ (d : Nat) (g : List Stroke), s.cfg.glyph[d]? = some g → ∃ e, t.memRead .segrom d = some e ∧
        e = ((strokeAll s.stkpos &&& ~~~(strokeBits s.stkpos g)) ||| t.segmask) ∧
        (strokeAll s.stkpos &&& t.segmask = 0#16 → ~~~e &&& strokeAll s.stkpos = strokeBits s.stkpos g)) ∧
      (∀ j : Nat, t.memRead .buf j = s.memRead .buf j ∧ t.memRead .selrom j = s.memRead .selrom j))

/-- 30_encoding.md section 1 (R90): a built pattern bit by bit: a select bit is 1, else a stroke bit is 1 exactly when its
stroke is not lit, and every other bit is 0. -/
def Obligations.BuiltPatternBits : Prop :=
  ∀ (s t : State) (d : Nat) (g : List Stroke) (e : Word) (i : Nat),
    exec .build s = .next t → s.cfg.glyph[d]? = some g → t.memRead .segrom d = some e → i < 16 →
    (e.getLsbD i = true ↔
      (∃ m ∈ s.mem.selrom, m.getLsbD i = true) ∨
      ((∃ x : Stroke, (strokePos s.stkpos x).toNat = i) ∧ ∀ x ∈ g, (strokePos s.stkpos x).toNat ≠ i))

/-- R61: which indices are legal, that every operation with an index refuses the others, and that a `TICK` never meets the
case. -/
def Obligations.IndexOutOfRangeIsRefused : Prop :=
  ∀ s : State, s.Inv →
    (∀ p w, (∃ t, exec (.wrbuf p w) s = .next t) ↔ p < s.cfg.n) ∧
    (∀ p w, s.cfg.n ≤ p → exec (.wrbuf p w) s = .refused .indexRange) ∧
    (∀ d, (∃ t, exec (.rdseg d) s = .next t) ↔ d < s.cfg.nglyph) ∧
    (∀ d, s.cfg.nglyph ≤ d → exec (.rdseg d) s = .refused .indexRange) ∧
    (s.run = false → ∀ p m, s.cfg.n ≤ p → exec (.cfgsel p m) s = .refused .indexRange) ∧
    (s.run = false → ∀ sel k, 8 ≤ sel → exec (.cfgstk sel k) s = .refused .indexRange) ∧
    ∃ t, exec .tick s = .next t

/-! ## Timer and control -/

/-- R210: one count; stopped, no change; the only effects are on `TCNT` and `TIF`. -/
def Obligations.TclkCounts : Prop :=
  ∀ s : State,
    (s.run = false → exec .tclk s = .next s) ∧
    (s.run = true → s.tcnt ≠ 255#8 → exec .tclk s = .next { s with tcnt := s.tcnt + 1#8 }) ∧
    (s.run = true → s.tcnt = 255#8 → exec .tclk s = .next { s with tcnt := 0#8, tif := true })

/-- R213: arming; the first expiry comes `WRAP - RELOAD` counts later; armed under the mask, no `TICK` occurs. -/
def Obligations.StartArmsTheTimer : Prop :=
  ∀ s : State,
    (s.run = true → exec .start s = .refused .alreadyRunning) ∧
    (s.run = false → exec .start s = .next { s with tcnt := s.cfg.reload, tif := false, run := true }) ∧
    (s.run = false → ∀ j : Nat, ∃ t, execAll (.start :: List.replicate j .tclk) s = .next t ∧
      t.tif = decide (256 - s.cfg.reload.toNat ≤ j) ∧ (s.mask = true → exec .tick t = .next t))

/-- R214: disabling; a pending expiry is discarded and everything else kept; stopped, nothing counts and nothing scans;
idempotent. -/
def Obligations.StopDisablesTheCycle : Prop :=
  ∀ s : State,
    exec .stop s = .next { s with run := false, tif := false } ∧
    (∀ t, exec .stop s = .next t → exec .tclk t = .next t ∧ exec .tick t = .next t ∧ exec .stop t = .next t) ∧
    (s.Inv → s.run = false → exec .stop s = .next s)

/-- 43_timer_control.md section 3 (R215, R216), 70_reset_and_hazards.md section 3 (R282): `DI` sets and `EI` clears the mask
and nothing else; both are idempotent; an inner `EI` ends the outer section. -/
def Obligations.CriticalSectionFlag : Prop :=
  ∀ s : State,
    exec .di s = .next { s with mask := true } ∧ exec .ei s = .next { s with mask := false } ∧
    execAll [.di, .di, .ei] s = .next { s with mask := false }

/-- R217: the rate, computed from the configuration only, by one division or step by step; no state but the response
changes; it fits 32 bits whenever the clock does. -/
def Obligations.QrateReturnsTheRate : Prop :=
  ∀ s : State, s.cfg.legal = true →
    (s.cfg.fClock < 2 ^ 32 → s.cfg.fClock / (s.cfg.prescaler * s.cfg.n * (256 - s.cfg.reload.toNat)) < 2 ^ 32) ∧
    (s.cfg.fClock / (s.cfg.prescaler * s.cfg.n * (256 - s.cfg.reload.toNat)) < 2 ^ 32 →
      exec .qrate s = .next { s with resp := some (BitVec.ofNat 32
        (s.cfg.fClock / (s.cfg.prescaler * s.cfg.n * (256 - s.cfg.reload.toNat)))) } ∧
      exec .qrate s = .next { s with resp := some (BitVec.ofNat 32
        (s.cfg.fClock / s.cfg.prescaler / s.cfg.n / (256 - s.cfg.reload.toNat))) })

/-- The model's choice (log 10): where the quotient does not fit 32 bits `QRATE` completes all the same, with a value about
which nothing is stated; the rest of the state is unchanged. -/
def Obligations.QrateAlwaysCompletes : Prop :=
  ∀ s : State, ∃ v, exec .qrate s = .next { s with resp := some v }

/-- 43_timer_control.md section 4 (R218): a larger reload constant never gives a lower rate. -/
def Obligations.RateGrowsWithReload : Prop :=
  ∀ (c : Config) (r₁ r₂ : BitVec 8), c.legal = true → r₁.toNat ≤ r₂.toNat →
    c.fClock / (c.prescaler * c.n * (256 - r₂.toNat)) < 2 ^ 32 →
    (rateResponse { c with reload := r₁ }).toNat ≤ (rateResponse { c with reload := r₂ }).toNat

/-- 43_timer_control.md section 1 (R211, R212): after arming or re-arming, the expiry comes with count `WRAP - RELOAD` and
no earlier, and stays pending. -/
def Obligations.ExpiryComesAfterThePeriod : Prop :=
  ∀ (s : State) (j : Nat), s.run = true → s.tif = false → s.tcnt = s.cfg.reload →
    execAll (List.replicate j .tclk) s =
      .next { s with tcnt := BitVec.ofNat 8 (s.cfg.reload.toNat + j), tif := decide (256 - s.cfg.reload.toNat ≤ j) }

/-- 60_exceptions.md section 3 (R249), 43_timer_control.md section 1 (R211): however many expiries fall into a critical
section, one invocation follows, and the cursor moves by one. -/
def Obligations.MissedExpiriesGiveOneTick : Prop :=
  ∀ (s : State) (j : Nat), s.Inv → s.run = true → 256 ≤ j →
    ∃ t, execAll (.di :: (List.replicate j .tclk ++ [.ei, .tick, .tick])) s = .next t ∧
      t.cursor = (s.cursor + 1) % s.cfg.n ∧ t.tif = false ∧ t.tcnt = s.cfg.reload ∧
      t.trace.length = s.trace.length + 51 ∧ t.mem = s.mem

/-! ## The scan engine and the chain -/

/-- 42_scan_refresh.md section 1 (R180), 60_exceptions.md section 2 (R243): the one tuple of flags at which a `TICK` occurs;
at any other, none does: a `TICK` that is offered all the same changes nothing (the model's reading, log 5). -/
def Obligations.TickStartsOnlyWhenEnabled : Prop :=
  ∀ s : State,
    (s.irq = true ↔ s.run = true ∧ s.mask = false ∧ s.tif = true ∧ s.insvc = false) ∧
    (s.irq = false → exec .tick s = .next s)

/-- 42_scan_refresh.md sections 1, 2 and 4 (R180 to R187, R190): what one invocation leaves, whatever the chain held
before, the 51 events it adds to the line trace, and all that it leaves alone. -/
def Obligations.TickLatchesTheWord : Prop :=
  ∀ s : State, s.Inv → s.irq = true →
    ∃ (t : State) (m e : Word), s.memRead .selrom s.cursor = some m ∧ s.memRead .buf s.cursor = some e ∧
      exec .tick s = .next t ∧
      t = { s with word := m ||| ~~~e, tcnt := s.cfg.reload, tif := false, cursor := (s.cursor + 1) % s.cfg.n,
                   wires := t.wires, trace := s.trace ++ tickTrace (m ||| ~~~e) } ∧
      t.wires = { data := (m ||| ~~~e).getLsbD 0, sclk := false, latch := false, sr := m ||| ~~~e, q := m ||| ~~~e }

/-- 42_scan_refresh.md section 4 (R191), 20_memory.md section 2 (R63): the line trace of a `TICK`, event by event, and that no
other operation emits. -/
def Obligations.TickEmitsFiftyOneEvents : Prop :=
  (∀ s t : State, s.Inv → s.irq = true → exec .tick s = .next t → t.trace = s.trace ++ tickTrace t.word) ∧
  (∀ (i : Instr) (s t : State), i ≠ .tick → exec i s = .next t → t.trace = s.trace) ∧
  (∀ w : Word, (tickTrace w).length = 51 ∧ (tickTrace w)[0]? = some ⟨.latch, false⟩ ∧
    (tickTrace w)[49]? = some ⟨.latch, true⟩ ∧ (tickTrace w)[50]? = some ⟨.latch, false⟩ ∧
    ∀ k, k < 16 → (tickTrace w)[1 + 3 * k]? = some ⟨.data, w.getLsbD (15 - k)⟩ ∧
      (tickTrace w)[2 + 3 * k]? = some ⟨.sclk, true⟩ ∧ (tickTrace w)[3 + 3 * k]? = some ⟨.sclk, false⟩)

/-- R188: the shift stages move on a rising edge of `SCLK` and on nothing else; after sixteen edges the first bit is
`SR[15]`. -/
def Obligations.ChainShiftsOnRisingShiftClock : Prop :=
  (∀ w : Wires, w.sclk = false →
    (w.drive ⟨.sclk, true⟩).sr.toNat = (w.sr.toNat * 2) % 65536 + w.data.toNat ∧
    (w.drive ⟨.sclk, true⟩).sr = BitVec.concat (w.sr.extractLsb' 0 15) w.data) ∧
  (∀ (w : Wires) (e : LineEvent), ¬(e = ⟨.sclk, true⟩ ∧ w.sclk = false) → (w.drive e).sr = w.sr) ∧
  (∀ (w : Wires) (word : Word), w.sclk = false → (w.replay (bitTrace word 16)).sr = word ∧
    (w.replay (bitTrace word 16)).q = w.q)

/-- R189: the output latches copy on a rising edge of `LATCH`, all sixteen bits in one event, and keep their value at all
other times. -/
def Obligations.ChainLatchesOnRisingLatchClock : Prop :=
  (∀ w : Wires, w.latch = false → (w.drive ⟨.latch, true⟩).q = w.sr) ∧
  (∀ (w : Wires) (e : LineEvent), ¬(e = ⟨.latch, true⟩ ∧ w.latch = false) → (w.drive e).q = w.q) ∧
  (∀ (w : Wires) (es : List LineEvent), (∀ e ∈ es, e.line ≠ .latch) → (w.replay es).q = w.q)

/-- 00_scope.md section 6 (R11): over any prefix, lines and chain are what the added line trace makes of them. -/
def Obligations.ChainFollowsTheLineTrace : Prop :=
  ∀ (k : Nat) (s t : State), steps k s = .next t →
    ∃ es, t.trace = s.trace ++ es ∧ t.wires = s.wires.replay es

/-- R192: over any prefix the cursor has moved by the number of invocations, one each, modulo N; it is back after exactly
N; nothing else moves it. -/
def Obligations.CursorCountsInvocations : Prop :=
  (∀ s t : State, s.Inv → step s = .next t →
    (t.cursor = s.cursor ∧ t.trace = s.trace) ∨
    (t.cursor = (s.cursor + 1) % s.cfg.n ∧ t.trace.length = s.trace.length + 51)) ∧
  (∀ (k : Nat) (s t : State), s.Inv → steps k s = .next t →
    ∃ j, t.trace.length = s.trace.length + 51 * j ∧ t.cursor = (s.cursor + j) % s.cfg.n) ∧
  (∀ (c : Config) (d : ResetDraw) (ins : List Input) (k : Nat) (t : State), c.legal = true →
    steps k { State.constructed c d with inputs := ins } = .next t →
    ∃ j, t.trace.length = 51 * j ∧ t.cursor = j % c.n) ∧
  (∀ n c j : Nat, c < n → (c + n) % n = c ∧ (0 < j → j < n → (c + j) % n ≠ c))

/-- 10_state.md section 2 (R23, R25), 42_scan_refresh.md section 1 (R180): the phase-by-phase machine, moved 22 times, is the
atomic `TICK`. -/
def Obligations.FineEngineRefinesTick : Prop :=
  ∀ s : State, s.Inv → s.irq = true → engineMoves movesPerInvocation s = exec .tick s

/-- 20_memory.md section 5 (R71): a timer count commutes with every move of the engine after the re-arm. -/
def Obligations.TimerCountCommutesWithEngine : Prop :=
  ∀ s t u : State, s.phase ≠ .idle → s.phase ≠ .rearm → engineMove s = .next t → exec .tclk s = .next u →
    ∃ v, engineMove u = .next v ∧ exec .tclk t = .next v

/-- 30_encoding.md section 2 (R96), for current tables of a canonical wiring and an entry that is a pattern, with or without
the point. -/
def Obligations.TransmissionWordClasses : Prop :=
  ∀ (s t : State) (d : Nat) (g : List Stroke) (pat m : Word) (point : Bool),
    s.Inv → s.irq = true → s.Canonical → s.TablesCurrent →
    s.cfg.glyph[d]? = some g → s.memRead .segrom d = some pat → s.memRead .selrom s.cursor = some m →
    s.memRead .buf s.cursor = some (if point then pat ||| s.dpbit else pat) → exec .tick s = .next t →
    t.word &&& s.segmask = m ∧ t.word &&& strokeAll s.stkpos = strokeBits s.stkpos g ∧
    (t.word &&& s.dpbit = 0#16 ↔ point = true)

/-- 42_scan_refresh.md section 4 (R194): after such a `TICK` exactly the refreshed position is enabled, with the strokes of its
glyph and the level of the DP line, and every other position is dark; and, for any word, a position is the only one enabled
exactly when the word's select bits are its mask. -/
def Obligations.DisplayShowsOneDigit : Prop :=
  (∀ (s t : State) (d : Nat) (g : List Stroke) (pat : Word) (point : Bool),
    s.Inv → s.irq = true → s.Canonical → s.TablesCurrent →
    s.cfg.glyph[d]? = some g → s.memRead .segrom d = some pat →
    s.memRead .buf s.cursor = some (if point then pat ||| s.dpbit else pat) → exec .tick s = .next t →
    ∀ p, p < s.cfg.n → t.display[p]? =
      some (if p = s.cursor then some ⟨Stroke.all.filter fun x => decide (x ∈ g), !point⟩ else none)) ∧
  (∀ (s : State) (q m : Word) (c : Nat),
    s.Inv → s.Canonical → s.segmask = orAll s.mem.selrom → s.memRead .selrom c = some m →
    (q &&& s.segmask = m ↔ ∀ p, p < s.cfg.n → enabledBy s q p = decide (p = c)))

/-- 70_reset_and_hazards.md sections 2 and 3 (R274, R283, R285, R286): a buffer word, whoever wrote it and however old the
tables are, enables every digit whose select bit it holds at 0, besides the refreshed one; before the first `TICK` any set of
digits may be enabled. -/
def Obligations.RawBufferWordEnablesMoreDigits : Prop :=
  (∀ (s t : State) (m e : Word), s.Inv → s.irq = true → s.memRead .selrom s.cursor = some m →
    s.memRead .buf s.cursor = some e → m &&& s.segmask = m → exec .tick s = .next t →
    t.wires.q &&& s.segmask = m ||| (~~~e &&& s.segmask)) ∧
  (∀ (s t : State) (e : Word), s.Inv → s.irq = true → s.Canonical →
    s.memRead .buf s.cursor = some e → exec .tick s = .next t →
    ∀ (p : Nat) (m : Word), s.memRead .selrom p = some m →
      t.display[p]? = some (if p = s.cursor ∨ e &&& m = 0#16 then
        some ⟨Stroke.all.filter fun x => !e.getLsbD (strokePos s.stkpos x).toNat,
          !e.getLsbD (pointPos s.stkpos).toNat⟩ else none)) ∧
  (∀ (c : Config) (on : Nat → Bool), c.legal = true → c.canonical = true →
    ∃ d : ResetDraw, ∀ p, p < c.n →
      ∃ shown, (State.constructed c d).display[p]? = some shown ∧ shown.isSome = on p)

/-! ## Ordering and ownership -/

/-- 20_memory.md section 6 (R72), 70_reset_and_hazards.md section 3 (R281): from `MASK = 1`, as long as no `EI` is issued, no
`TICK` occurs: lines, chain, cursor and word stay as they are. -/
def Obligations.CriticalSectionExcludesTicks : Prop :=
  ∀ (k : Nat) (s t : State), s.mask = true →
    (∀ x ∈ s.inputs.take k, decodeInput x ≠ .ok .ei) → steps k s = .next t →
    t.mask = true ∧ t.trace = s.trace ∧ t.wires = s.wires ∧ t.cursor = s.cursor ∧ t.word = s.word ∧ t.insvc = s.insvc

/-- 10_state.md section 1 (R20, the column "written by"), 60_exceptions.md section 4 (R250): which operation may change what. -/
def Obligations.OnlyTheOwnerWrites : Prop :=
  ∀ (i : Instr) (s t : State), exec i s = .next t →
    ((∀ p m, i ≠ .cfgsel p m) → t.mem.selrom = s.mem.selrom) ∧
    ((∀ x k, i ≠ .cfgstk x k) → t.stkpos = s.stkpos) ∧
    (i ≠ .build → t.mem.segrom = s.mem.segrom ∧ t.segmask = s.segmask ∧ t.dpbit = s.dpbit) ∧
    ((∀ p w, i ≠ .wrbuf p w) → t.mem.buf = s.mem.buf) ∧
    (i ≠ .tick → t.cursor = s.cursor ∧ t.word = s.word ∧ t.phase = s.phase ∧ t.bitcnt = s.bitcnt ∧
      t.insvc = s.insvc ∧ t.wires = s.wires ∧ t.trace = s.trace) ∧
    (i ≠ .start → i ≠ .stop → t.run = s.run) ∧
    (i ≠ .di → i ≠ .ei → t.mask = s.mask) ∧
    (i ≠ .tclk → i ≠ .tick → i ≠ .start → i ≠ .stop → t.tif = s.tif) ∧
    (i ≠ .tclk → i ≠ .tick → i ≠ .start → t.tcnt = s.tcnt) ∧
    ((∀ d, i ≠ .rdseg d) → i ≠ .qrate → t.resp = s.resp) ∧
    t.cfg = s.cfg ∧ t.inputs = s.inputs

/-- 30_encoding.md section 6 (R106): after a command word the response port carries the table entry for `RDSEG`, the rate for
`QRATE`, and nothing for every other operation, refused ones included. The model's choices in it: that the port is emptied
when a command is taken (log 6), a refused one too (log 4), and the free rate where the quotient does not fit (log 10). -/
def Obligations.OnlyRdsegAndQrateRespond : Prop :=
  ∀ (s t : State) (w : HostWord) (rest : List Input), s.inputs = .command w :: rest → step s = .next t →
    (∀ (d : Nat) (e : Word), decode w = .ok (.rdseg d) → d < s.cfg.nglyph → s.memRead .segrom d = some e →
      t.resp = some (0#16 ++ e)) ∧
    (decode w = .ok .qrate → t.resp = some (rateResponse s.cfg)) ∧
    ((∀ d, decode w ≠ .ok (.rdseg d)) → decode w ≠ .ok .qrate → t.resp = none)

/-- 20_memory.md section 5 (R70 c): after any prefix an entry of the buffer holds the last word that a `WRBUF` of the prefix
wrote to it, or what it held before. -/
def Obligations.BufferHoldsTheLastWrite : Prop :=
  ∀ (k p : Nat) (s t : State), s.Inv → p < s.cfg.n → steps k s = .next t →
    t.memRead .buf p = (((s.inputs.take k).filterMap fun x =>
      match decodeInput x with
      | .ok (.wrbuf j w) => if j = p then some w else none
      | _ => none).getLast?).or (s.memRead .buf p)

/-- 40_encoding_tables.md section 3 (R128): while the timer is armed, and as long as no `STOP` is issued, the tables and the
wiring stay as they are. -/
def Obligations.TablesFrozenWhileRunning : Prop :=
  ∀ (k : Nat) (s t : State), s.run = true → (∀ x ∈ s.inputs.take k, decodeInput x ≠ .ok .stop) →
    steps k s = .next t →
    t.run = true ∧ t.mem.selrom = s.mem.selrom ∧ t.mem.segrom = s.mem.segrom ∧ t.stkpos = s.stkpos ∧
      t.segmask = s.segmask ∧ t.dpbit = s.dpbit

/-- 40_encoding_tables.md section 3 (R128): the three configuration operations are refused while the timer is armed. -/
def Obligations.ConfigurationRefusedWhileRunning : Prop :=
  ∀ (s : State) (p sel k : Nat) (m : Word), s.run = true →
    exec (.cfgsel p m) s = .refused .configWhileRunning ∧ exec (.cfgstk sel k) s = .refused .configWhileRunning ∧
    exec .build s = .refused .configWhileRunning

/-- 42_scan_refresh.md section 2 (R183): an invocation depends on the buffer only through the entry at the cursor. -/
def Obligations.TickReadsOnlyTheCursorEntry : Prop :=
  ∀ (s t : State) (other : List Word), s.Inv → s.irq = true →
    other[s.cursor]? = s.mem.buf[s.cursor]? → exec .tick s = .next t →
    exec .tick { s with mem := { s.mem with buf := other } } = .next { t with mem := { t.mem with buf := other } }

/-- 10_state.md section 4 (R30): the numbers of the control registers, their bits, and what each reads. -/
def Obligations.ControlRegisterViews : Prop :=
  ∀ s : State,
    ([.ctrl, .status, .tcnt, .reload, .presc, .rate].map ControlReg.number = [0, 1, 2, 3, 4, 5]) ∧
    s.ctrl.getLsbD 0 = s.run ∧ s.ctrl.getLsbD 1 = s.mask ∧ s.status.getLsbD 0 = s.tif ∧ s.status.getLsbD 1 = s.insvc ∧
    s.controlReg .ctrl = s.run.toNat + 2 * s.mask.toNat ∧ s.controlReg .status = s.tif.toNat + 2 * s.insvc.toNat ∧
    s.controlReg .tcnt = s.tcnt.toNat ∧ s.controlReg .reload = s.cfg.reload.toNat ∧
    s.controlReg .presc = s.cfg.prescaler ∧
    (s.cfg.legal = true → s.cfg.fClock / (s.cfg.prescaler * s.cfg.n * (256 - s.cfg.reload.toNat)) < 2 ^ 32 →
      s.controlReg .rate = s.cfg.fClock / (s.cfg.prescaler * s.cfg.n * (256 - s.cfg.reload.toNat))) ∧
    (∃ t, exec .qrate s = .next t ∧ t.resp = some (BitVec.ofNat 32 (s.controlReg .rate)))

/-! ## The value formatter -/

/-- 41_buffer_formatter.md sections 2 and 3 (R151, R160, R161): the refusals of a render, before any primitive is issued, and
that every other render is accepted. Which of several reasons is given is the model's choice (log 17). -/
def Obligations.RenderRefusals : Prop :=
  ∀ (r : RenderCall) (s : State),
    (r.base < 2 ∨ 16 < r.base ∨ s.cfg.nglyph < r.base → render r s = .refused .baseRange) ∧
    (2 ≤ r.base → r.base ≤ 16 → r.base ≤ s.cfg.nglyph →
      (r.value < 0 ∨ (2 : Int) ^ s.cfg.valw ≤ r.value) → render r s = .refused .negativeValue) ∧
    (2 ≤ r.base → r.base ≤ 16 → r.base ≤ s.cfg.nglyph → 0 ≤ r.value → r.value < (2 : Int) ^ s.cfg.valw →
      r.panel ≠ .whole → s.cfg.n % 2 = 1 → render r s = .refused .oddPanel) ∧
    (r.refusal s.cfg = none ↔
      2 ≤ r.base ∧ r.base ≤ 16 ∧ r.base ≤ s.cfg.nglyph ∧ 0 ≤ r.value ∧ r.value < (2 : Int) ^ s.cfg.valw ∧
        (r.panel = .whole ∨ s.cfg.n % 2 = 0)) ∧
    (∀ e, r.refusal s.cfg = some e → render r s = .refused e)

/-- 41_buffer_formatter.md sections 2 and 3 (R151, R156 to R158, R163): the net effect of a render that no event interrupts:
the digits of the value, most significant first, the point in the one entry that asks for it, nothing else changed. The
panels are those of R151 and the point's index is that of R157. Two things are the model's choice: a render issued with
`MASK = 1` runs too (log 16), and the response port ends empty (log 6). -/
def Obligations.RenderWritesTheDigits : Prop :=
  ∀ (r : RenderCall) (s : State) (lo hi : Nat), s.Inv → r.refusal s.cfg = none →
    lo = (if r.panel = .second then s.cfg.n / 2 else 0) → hi = (if r.panel = .first then s.cfg.n / 2 else s.cfg.n) →
    ∃ t, render r s = .next t ∧ t = { s with mem := t.mem, mask := false, resp := none } ∧
      (∀ i, lo ≤ i → i < hi →
        ∃ e, s.memRead .segrom (r.value.toNat / r.base ^ (hi - 1 - i) % r.base) = some e ∧
          t.memRead .buf i = some (if r.dp = some (if s.cfg.dpIndexing = .absolute then i else i - lo)
            then e ||| s.dpbit else e)) ∧
      (∀ i, i < lo ∨ hi ≤ i → t.memRead .buf i = s.memRead .buf i) ∧
      (∀ (sp : Space) (i : Nat), sp ≠ .buf → t.memRead sp i = s.memRead sp i)

/-- 41_buffer_formatter.md section 3 (R152), 30_encoding.md section 6 (R105): a render is its sequence of `2 + 2 * (hi - lo)`
operations, issued at the host port one after the other. -/
def Obligations.RenderIsItsOperations : Prop :=
  ∀ (r : RenderCall) (s : State) (lo hi : Nat), s.Inv → r.refusal s.cfg = none →
    lo = (if r.panel = .second then s.cfg.n / 2 else 0) → hi = (if r.panel = .first then s.cfg.n / 2 else s.cfg.n) →
    ∃ ops, renderOperations r s = some ops ∧ ops.length = 2 + 2 * (hi - lo) ∧
      (∀ i ∈ ops, i.wellFormed = true ∧ i.isHostOp = true) ∧ render r s = issueAll ops s

/-- R159: the panel shows the value modulo `b^W`; nothing records the truncation. -/
def Obligations.RenderTruncates : Prop :=
  ∀ (r r' : RenderCall) (s : State) (lo hi : Nat), s.Inv → r.refusal s.cfg = none →
    lo = (if r.panel = .second then s.cfg.n / 2 else 0) → hi = (if r.panel = .first then s.cfg.n / 2 else s.cfg.n) →
    r' = { r with value := ((r.value.toNat % r.base ^ (hi - lo) : Nat) : Int) } →
    r'.refusal s.cfg = none ∧ render r s = render r' s

/-- 41_buffer_formatter.md section 3 (R162, R163), 20_memory.md section 6 (R73): a render whose commands are issued one by one,
with any timer counts and any offered `TICK`s between them, is atomic: no `TICK` occurs and the net effect is the same. That
the response port ends empty is the model's choice (log 6). -/
def Obligations.RenderIsAtomicUnderEvents : Prop :=
  ∀ (r : RenderCall) (s : State) (body : List Instr) (mid rest : List Input) (lo hi : Nat),
    s.Inv → r.refusal s.cfg = none → renderBody r s = some body →
    mid.filter Input.isCommand = body.map encode → s.inputs = encode .di :: (mid ++ encode .ei :: rest) →
    lo = (if r.panel = .second then s.cfg.n / 2 else 0) → hi = (if r.panel = .first then s.cfg.n / 2 else s.cfg.n) →
    ∃ t u, steps (mid.length + 2) s = .next t ∧ execAll (List.replicate (mid.count .tclk) .tclk) s = .next u ∧
      t = { s with mem := t.mem, mask := false, resp := none, inputs := rest, tcnt := u.tcnt, tif := u.tif } ∧
      (∀ i, lo ≤ i → i < hi →
        ∃ e, s.memRead .segrom (r.value.toNat / r.base ^ (hi - 1 - i) % r.base) = some e ∧
          t.memRead .buf i = some (if r.dp = some (if s.cfg.dpIndexing = .absolute then i else i - lo)
            then e ||| s.dpbit else e)) ∧
      (∀ i, i < lo ∨ hi ≤ i → t.memRead .buf i = s.memRead .buf i) ∧
      (∀ (sp : Space) (i : Nat), sp ≠ .buf → t.memRead sp i = s.memRead sp i)

/-- 41_buffer_formatter.md section 3 (R164): decoding the entries of a rendered panel through the inverse of the segment map
gives the digits back, and the point where it was requested; a value that fits is recovered whole. -/
def Obligations.RenderRoundTrip : Prop :=
  ∀ (r : RenderCall) (s t : State) (lo hi : Nat), s.Inv → s.Canonical → s.TablesCurrent →
    (s.cfg.glyph.map (strokeBits s.stkpos)).Nodup → r.refusal s.cfg = none → render r s = .next t →
    lo = (if r.panel = .second then s.cfg.n / 2 else 0) → hi = (if r.panel = .first then s.cfg.n / 2 else s.cfg.n) →
    (∀ i, lo ≤ i → i < hi →
      ∃ e, t.memRead .buf i = some e ∧
        entryDigit t e = some (r.value.toNat / r.base ^ (hi - 1 - i) % r.base) ∧
        (e &&& s.dpbit ≠ 0#16 ↔ r.dp = some (if s.cfg.dpIndexing = .absolute then i else i - lo))) ∧
    (r.value.toNat < r.base ^ (hi - lo) →
      r.value.toNat = ((List.range (hi - lo)).map fun j =>
        r.value.toNat / r.base ^ j % r.base * r.base ^ j).sum)

/-- 41_buffer_formatter.md section 3 (R153, R154): the two panels are independent: either order gives the same memory. -/
def Obligations.PanelsAreIndependent : Prop :=
  ∀ (s : State) (v₁ v₂ : Int) (dp₁ dp₂ : Option Nat) (b₁ b₂ : Nat), s.Inv →
    (RenderCall.mk .first v₁ dp₁ b₁).refusal s.cfg = none → (RenderCall.mk .second v₂ dp₂ b₂).refusal s.cfg = none →
    ∃ t u, andThen (render1 v₁ dp₁ b₁ s) (render2 v₂ dp₂ b₂) = .next t ∧
      andThen (render2 v₂ dp₂ b₂ s) (render1 v₁ dp₁ b₁) = .next u ∧ t.mem = u.mem

/-- 41_buffer_formatter.md section 4 (R166): the scenario "00.42" from the reset state of the reference configuration. -/
def Obligations.ScenarioShowsZeroZeroPointFourTwo : Prop :=
  ∃ t, render1 42 (some 1) 10 State.reset = .next t ∧
    t.mem.buf.take 4 = [0xFF40#16, 0xFFC0#16, 0xFF19#16, 0xFF24#16]

/-! ## What is observed over a run -/

/-- 00_scope.md section 6 (R11 b), 42_scan_refresh.md section 4 (R190): over any prefix the latched word sequence, read from
the line trace, has one word for each invocation, the word composed from the select mask and the buffer entry that the
cursor's position has when that invocation starts; the cursors follow one another, and `Q` holds the last of the words. -/
def Obligations.LatchedWordsAreThoseOfTheTicks : Prop :=
  ∀ (k : Nat) (s t : State), s.Inv → steps k s = .next t →
    ∃ es, t.trace = s.trace ++ es ∧ es.length = 51 * (ticking k s).length ∧
      List.Forall₂ (fun q u => ∃ m e, u.memRead .selrom u.cursor = some m ∧ u.memRead .buf u.cursor = some e ∧
        q = m ||| ~~~e) (latchedWords s.wires es) (ticking k s) ∧
      (∀ (j : Nat) (u : State), (ticking k s)[j]? = some u →
        u.irq = true ∧ u.cursor = (s.cursor + j) % s.cfg.n) ∧
      t.wires.q = (latchedWords s.wires es).getLast?.getD s.wires.q

/-- 42_scan_refresh.md section 4 (R194): over any prefix with `N` invocations, of a canonical block whose select masks and
wiring are not reconfigured meanwhile and whose buffer entries hold the segment mask, every position is enabled exactly once,
with the buffer entry it has when its `TICK` starts; that is the displayed glyph it is left with. -/
def Obligations.EveryPositionIsShownOncePerCycle : Prop :=
  ∀ (k : Nat) (s t : State), s.Inv → s.Canonical → s.segmask = orAll s.mem.selrom →
    (∀ (p : Nat) (e : Word), s.memRead .buf p = some e → e &&& s.segmask = s.segmask) →
    (∀ x ∈ s.inputs.take k, ∀ i, decodeInput x = .ok i →
      (∀ p m, i ≠ .cfgsel p m) ∧ (∀ sel b, i ≠ .cfgstk sel b) ∧
      ∀ p w, i = .wrbuf p w → w &&& s.segmask = s.segmask) →
    (ticking k s).length = s.cfg.n → steps k s = .next t →
    ∃ es, t.trace = s.trace ++ es ∧ ∀ p, p < s.cfg.n →
      ∃ (u : State) (e : Word), (ticking k s).filter (fun v => decide (v.cursor = p)) = [u] ∧
        u.memRead .buf p = some e ∧
        shownDuring t p (latchedWords s.wires es) =
          [⟨Stroke.all.filter fun x => !e.getLsbD (strokePos s.stkpos x).toNat,
            !e.getLsbD (pointPos s.stkpos).toNat⟩] ∧
        lastShown t p (latchedWords s.wires es) =
          some ⟨Stroke.all.filter fun x => !e.getLsbD (strokePos s.stkpos x).toNat,
            !e.getLsbD (pointPos s.stkpos).toNat⟩
end

