-- ==== Sys2Proof/Laws/State.lean ====
section
/-! SUPPORT. One lemma per field per update of the state, true by `rfl`, so that no later proof unfolds an update. -/

namespace Sys2Proof.Machine

/-! ## `State.storeElement`: `MemWrite`'s update -/

@[simp] theorem State.storeElement_cfg (s : State) (sp : Space) (i : Nat) (v : Word) : (s.storeElement sp i v).cfg = s.cfg := rfl
@[simp] theorem State.storeElement_mem (s : State) (sp : Space) (i : Nat) (v : Word) : (s.storeElement sp i v).mem = s.mem.withSpace sp ((s.mem.space sp).set i v) := rfl
@[simp] theorem State.storeElement_stkpos (s : State) (sp : Space) (i : Nat) (v : Word) : (s.storeElement sp i v).stkpos = s.stkpos := rfl
@[simp] theorem State.storeElement_segmask (s : State) (sp : Space) (i : Nat) (v : Word) : (s.storeElement sp i v).segmask = s.segmask := rfl
@[simp] theorem State.storeElement_dpbit (s : State) (sp : Space) (i : Nat) (v : Word) : (s.storeElement sp i v).dpbit = s.dpbit := rfl
@[simp] theorem State.storeElement_cursor (s : State) (sp : Space) (i : Nat) (v : Word) : (s.storeElement sp i v).cursor = s.cursor := rfl
@[simp] theorem State.storeElement_word (s : State) (sp : Space) (i : Nat) (v : Word) : (s.storeElement sp i v).word = s.word := rfl
@[simp] theorem State.storeElement_phase (s : State) (sp : Space) (i : Nat) (v : Word) : (s.storeElement sp i v).phase = s.phase := rfl
@[simp] theorem State.storeElement_bitcnt (s : State) (sp : Space) (i : Nat) (v : Word) : (s.storeElement sp i v).bitcnt = s.bitcnt := rfl
@[simp] theorem State.storeElement_run (s : State) (sp : Space) (i : Nat) (v : Word) : (s.storeElement sp i v).run = s.run := rfl
@[simp] theorem State.storeElement_mask (s : State) (sp : Space) (i : Nat) (v : Word) : (s.storeElement sp i v).mask = s.mask := rfl
@[simp] theorem State.storeElement_tif (s : State) (sp : Space) (i : Nat) (v : Word) : (s.storeElement sp i v).tif = s.tif := rfl
@[simp] theorem State.storeElement_insvc (s : State) (sp : Space) (i : Nat) (v : Word) : (s.storeElement sp i v).insvc = s.insvc := rfl
@[simp] theorem State.storeElement_tcnt (s : State) (sp : Space) (i : Nat) (v : Word) : (s.storeElement sp i v).tcnt = s.tcnt := rfl
@[simp] theorem State.storeElement_wires (s : State) (sp : Space) (i : Nat) (v : Word) : (s.storeElement sp i v).wires = s.wires := rfl
@[simp] theorem State.storeElement_trace (s : State) (sp : Space) (i : Nat) (v : Word) : (s.storeElement sp i v).trace = s.trace := rfl
@[simp] theorem State.storeElement_resp (s : State) (sp : Space) (i : Nat) (v : Word) : (s.storeElement sp i v).resp = s.resp := rfl
@[simp] theorem State.storeElement_inputs (s : State) (sp : Space) (i : Nat) (v : Word) : (s.storeElement sp i v).inputs = s.inputs := rfl

/-! ## `State.respond`: `resp <- v` -/

@[simp] theorem State.respond_cfg (s : State) (v : HostWord) : (s.respond v).cfg = s.cfg := rfl
@[simp] theorem State.respond_mem (s : State) (v : HostWord) : (s.respond v).mem = s.mem := rfl
@[simp] theorem State.respond_stkpos (s : State) (v : HostWord) : (s.respond v).stkpos = s.stkpos := rfl
@[simp] theorem State.respond_segmask (s : State) (v : HostWord) : (s.respond v).segmask = s.segmask := rfl
@[simp] theorem State.respond_dpbit (s : State) (v : HostWord) : (s.respond v).dpbit = s.dpbit := rfl
@[simp] theorem State.respond_cursor (s : State) (v : HostWord) : (s.respond v).cursor = s.cursor := rfl
@[simp] theorem State.respond_word (s : State) (v : HostWord) : (s.respond v).word = s.word := rfl
@[simp] theorem State.respond_phase (s : State) (v : HostWord) : (s.respond v).phase = s.phase := rfl
@[simp] theorem State.respond_bitcnt (s : State) (v : HostWord) : (s.respond v).bitcnt = s.bitcnt := rfl
@[simp] theorem State.respond_run (s : State) (v : HostWord) : (s.respond v).run = s.run := rfl
@[simp] theorem State.respond_mask (s : State) (v : HostWord) : (s.respond v).mask = s.mask := rfl
@[simp] theorem State.respond_tif (s : State) (v : HostWord) : (s.respond v).tif = s.tif := rfl
@[simp] theorem State.respond_insvc (s : State) (v : HostWord) : (s.respond v).insvc = s.insvc := rfl
@[simp] theorem State.respond_tcnt (s : State) (v : HostWord) : (s.respond v).tcnt = s.tcnt := rfl
@[simp] theorem State.respond_wires (s : State) (v : HostWord) : (s.respond v).wires = s.wires := rfl
@[simp] theorem State.respond_trace (s : State) (v : HostWord) : (s.respond v).trace = s.trace := rfl
@[simp] theorem State.respond_resp (s : State) (v : HostWord) : (s.respond v).resp = some v := rfl
@[simp] theorem State.respond_inputs (s : State) (v : HostWord) : (s.respond v).inputs = s.inputs := rfl

/-! ## `State.emptyPort`: a command is taken (log 6) -/

@[simp] theorem State.emptyPort_cfg (s : State) : (s.emptyPort).cfg = s.cfg := rfl
@[simp] theorem State.emptyPort_mem (s : State) : (s.emptyPort).mem = s.mem := rfl
@[simp] theorem State.emptyPort_stkpos (s : State) : (s.emptyPort).stkpos = s.stkpos := rfl
@[simp] theorem State.emptyPort_segmask (s : State) : (s.emptyPort).segmask = s.segmask := rfl
@[simp] theorem State.emptyPort_dpbit (s : State) : (s.emptyPort).dpbit = s.dpbit := rfl
@[simp] theorem State.emptyPort_cursor (s : State) : (s.emptyPort).cursor = s.cursor := rfl
@[simp] theorem State.emptyPort_word (s : State) : (s.emptyPort).word = s.word := rfl
@[simp] theorem State.emptyPort_phase (s : State) : (s.emptyPort).phase = s.phase := rfl
@[simp] theorem State.emptyPort_bitcnt (s : State) : (s.emptyPort).bitcnt = s.bitcnt := rfl
@[simp] theorem State.emptyPort_run (s : State) : (s.emptyPort).run = s.run := rfl
@[simp] theorem State.emptyPort_mask (s : State) : (s.emptyPort).mask = s.mask := rfl
@[simp] theorem State.emptyPort_tif (s : State) : (s.emptyPort).tif = s.tif := rfl
@[simp] theorem State.emptyPort_insvc (s : State) : (s.emptyPort).insvc = s.insvc := rfl
@[simp] theorem State.emptyPort_tcnt (s : State) : (s.emptyPort).tcnt = s.tcnt := rfl
@[simp] theorem State.emptyPort_wires (s : State) : (s.emptyPort).wires = s.wires := rfl
@[simp] theorem State.emptyPort_trace (s : State) : (s.emptyPort).trace = s.trace := rfl
@[simp] theorem State.emptyPort_resp (s : State) : (s.emptyPort).resp = none := rfl
@[simp] theorem State.emptyPort_inputs (s : State) : (s.emptyPort).inputs = s.inputs := rfl

/-! ## `State.emit`: `emit` -/

@[simp] theorem State.emit_cfg (s : State) (l : Line) (b : Bool) : (s.emit l b).cfg = s.cfg := rfl
@[simp] theorem State.emit_mem (s : State) (l : Line) (b : Bool) : (s.emit l b).mem = s.mem := rfl
@[simp] theorem State.emit_stkpos (s : State) (l : Line) (b : Bool) : (s.emit l b).stkpos = s.stkpos := rfl
@[simp] theorem State.emit_segmask (s : State) (l : Line) (b : Bool) : (s.emit l b).segmask = s.segmask := rfl
@[simp] theorem State.emit_dpbit (s : State) (l : Line) (b : Bool) : (s.emit l b).dpbit = s.dpbit := rfl
@[simp] theorem State.emit_cursor (s : State) (l : Line) (b : Bool) : (s.emit l b).cursor = s.cursor := rfl
@[simp] theorem State.emit_word (s : State) (l : Line) (b : Bool) : (s.emit l b).word = s.word := rfl
@[simp] theorem State.emit_phase (s : State) (l : Line) (b : Bool) : (s.emit l b).phase = s.phase := rfl
@[simp] theorem State.emit_bitcnt (s : State) (l : Line) (b : Bool) : (s.emit l b).bitcnt = s.bitcnt := rfl
@[simp] theorem State.emit_run (s : State) (l : Line) (b : Bool) : (s.emit l b).run = s.run := rfl
@[simp] theorem State.emit_mask (s : State) (l : Line) (b : Bool) : (s.emit l b).mask = s.mask := rfl
@[simp] theorem State.emit_tif (s : State) (l : Line) (b : Bool) : (s.emit l b).tif = s.tif := rfl
@[simp] theorem State.emit_insvc (s : State) (l : Line) (b : Bool) : (s.emit l b).insvc = s.insvc := rfl
@[simp] theorem State.emit_tcnt (s : State) (l : Line) (b : Bool) : (s.emit l b).tcnt = s.tcnt := rfl
@[simp] theorem State.emit_wires (s : State) (l : Line) (b : Bool) : (s.emit l b).wires = s.wires.drive ⟨l, b⟩ := rfl
@[simp] theorem State.emit_trace (s : State) (l : Line) (b : Bool) : (s.emit l b).trace = s.trace ++ [⟨l, b⟩] := rfl
@[simp] theorem State.emit_resp (s : State) (l : Line) (b : Bool) : (s.emit l b).resp = s.resp := rfl
@[simp] theorem State.emit_inputs (s : State) (l : Line) (b : Bool) : (s.emit l b).inputs = s.inputs := rfl

/-! ## `State.shiftBit`: one bit transfer (R185) -/

@[simp] theorem State.shiftBit_cfg (s : State) (b : Bool) : (s.shiftBit b).cfg = s.cfg := rfl
@[simp] theorem State.shiftBit_mem (s : State) (b : Bool) : (s.shiftBit b).mem = s.mem := rfl
@[simp] theorem State.shiftBit_stkpos (s : State) (b : Bool) : (s.shiftBit b).stkpos = s.stkpos := rfl
@[simp] theorem State.shiftBit_segmask (s : State) (b : Bool) : (s.shiftBit b).segmask = s.segmask := rfl
@[simp] theorem State.shiftBit_dpbit (s : State) (b : Bool) : (s.shiftBit b).dpbit = s.dpbit := rfl
@[simp] theorem State.shiftBit_cursor (s : State) (b : Bool) : (s.shiftBit b).cursor = s.cursor := rfl
@[simp] theorem State.shiftBit_word (s : State) (b : Bool) : (s.shiftBit b).word = s.word := rfl
@[simp] theorem State.shiftBit_phase (s : State) (b : Bool) : (s.shiftBit b).phase = s.phase := rfl
@[simp] theorem State.shiftBit_bitcnt (s : State) (b : Bool) : (s.shiftBit b).bitcnt = s.bitcnt := rfl
@[simp] theorem State.shiftBit_run (s : State) (b : Bool) : (s.shiftBit b).run = s.run := rfl
@[simp] theorem State.shiftBit_mask (s : State) (b : Bool) : (s.shiftBit b).mask = s.mask := rfl
@[simp] theorem State.shiftBit_tif (s : State) (b : Bool) : (s.shiftBit b).tif = s.tif := rfl
@[simp] theorem State.shiftBit_insvc (s : State) (b : Bool) : (s.shiftBit b).insvc = s.insvc := rfl
@[simp] theorem State.shiftBit_tcnt (s : State) (b : Bool) : (s.shiftBit b).tcnt = s.tcnt := rfl
@[simp] theorem State.shiftBit_wires (s : State) (b : Bool) : (s.shiftBit b).wires = ((s.wires.drive ⟨.data, b⟩).drive ⟨.sclk, true⟩).drive ⟨.sclk, false⟩ := rfl
@[simp] theorem State.shiftBit_trace (s : State) (b : Bool) : (s.shiftBit b).trace = s.trace ++ [⟨.data, b⟩] ++ [⟨.sclk, true⟩] ++ [⟨.sclk, false⟩] := rfl
@[simp] theorem State.shiftBit_resp (s : State) (b : Bool) : (s.shiftBit b).resp = s.resp := rfl
@[simp] theorem State.shiftBit_inputs (s : State) (b : Bool) : (s.shiftBit b).inputs = s.inputs := rfl

/-! ## `State.takeInterrupt`: the entry of the interrupt -/

@[simp] theorem State.takeInterrupt_cfg (s : State) : (s.takeInterrupt).cfg = s.cfg := rfl
@[simp] theorem State.takeInterrupt_mem (s : State) : (s.takeInterrupt).mem = s.mem := rfl
@[simp] theorem State.takeInterrupt_stkpos (s : State) : (s.takeInterrupt).stkpos = s.stkpos := rfl
@[simp] theorem State.takeInterrupt_segmask (s : State) : (s.takeInterrupt).segmask = s.segmask := rfl
@[simp] theorem State.takeInterrupt_dpbit (s : State) : (s.takeInterrupt).dpbit = s.dpbit := rfl
@[simp] theorem State.takeInterrupt_cursor (s : State) : (s.takeInterrupt).cursor = s.cursor := rfl
@[simp] theorem State.takeInterrupt_word (s : State) : (s.takeInterrupt).word = s.word := rfl
@[simp] theorem State.takeInterrupt_phase (s : State) : (s.takeInterrupt).phase = .rearm := rfl
@[simp] theorem State.takeInterrupt_bitcnt (s : State) : (s.takeInterrupt).bitcnt = s.bitcnt := rfl
@[simp] theorem State.takeInterrupt_run (s : State) : (s.takeInterrupt).run = s.run := rfl
@[simp] theorem State.takeInterrupt_mask (s : State) : (s.takeInterrupt).mask = s.mask := rfl
@[simp] theorem State.takeInterrupt_tif (s : State) : (s.takeInterrupt).tif = false := rfl
@[simp] theorem State.takeInterrupt_insvc (s : State) : (s.takeInterrupt).insvc = true := rfl
@[simp] theorem State.takeInterrupt_tcnt (s : State) : (s.takeInterrupt).tcnt = s.tcnt := rfl
@[simp] theorem State.takeInterrupt_wires (s : State) : (s.takeInterrupt).wires = s.wires := rfl
@[simp] theorem State.takeInterrupt_trace (s : State) : (s.takeInterrupt).trace = s.trace := rfl
@[simp] theorem State.takeInterrupt_resp (s : State) : (s.takeInterrupt).resp = s.resp := rfl
@[simp] theorem State.takeInterrupt_inputs (s : State) : (s.takeInterrupt).inputs = s.inputs := rfl

/-! ## `State.returnFromInterrupt`: the return of the interrupt -/

@[simp] theorem State.returnFromInterrupt_cfg (s : State) : (s.returnFromInterrupt).cfg = s.cfg := rfl
@[simp] theorem State.returnFromInterrupt_mem (s : State) : (s.returnFromInterrupt).mem = s.mem := rfl
@[simp] theorem State.returnFromInterrupt_stkpos (s : State) : (s.returnFromInterrupt).stkpos = s.stkpos := rfl
@[simp] theorem State.returnFromInterrupt_segmask (s : State) : (s.returnFromInterrupt).segmask = s.segmask := rfl
@[simp] theorem State.returnFromInterrupt_dpbit (s : State) : (s.returnFromInterrupt).dpbit = s.dpbit := rfl
@[simp] theorem State.returnFromInterrupt_cursor (s : State) : (s.returnFromInterrupt).cursor = s.cursor := rfl
@[simp] theorem State.returnFromInterrupt_word (s : State) : (s.returnFromInterrupt).word = s.word := rfl
@[simp] theorem State.returnFromInterrupt_phase (s : State) : (s.returnFromInterrupt).phase = .idle := rfl
@[simp] theorem State.returnFromInterrupt_bitcnt (s : State) : (s.returnFromInterrupt).bitcnt = s.bitcnt := rfl
@[simp] theorem State.returnFromInterrupt_run (s : State) : (s.returnFromInterrupt).run = s.run := rfl
@[simp] theorem State.returnFromInterrupt_mask (s : State) : (s.returnFromInterrupt).mask = s.mask := rfl
@[simp] theorem State.returnFromInterrupt_tif (s : State) : (s.returnFromInterrupt).tif = s.tif := rfl
@[simp] theorem State.returnFromInterrupt_insvc (s : State) : (s.returnFromInterrupt).insvc = false := rfl
@[simp] theorem State.returnFromInterrupt_tcnt (s : State) : (s.returnFromInterrupt).tcnt = s.tcnt := rfl
@[simp] theorem State.returnFromInterrupt_wires (s : State) : (s.returnFromInterrupt).wires = s.wires := rfl
@[simp] theorem State.returnFromInterrupt_trace (s : State) : (s.returnFromInterrupt).trace = s.trace := rfl
@[simp] theorem State.returnFromInterrupt_resp (s : State) : (s.returnFromInterrupt).resp = s.resp := rfl
@[simp] theorem State.returnFromInterrupt_inputs (s : State) : (s.returnFromInterrupt).inputs = s.inputs := rfl

/-! ## `State.takeInput`: taking an input -/

@[simp] theorem State.takeInput_cfg (s : State) (x : Input) (rest : List Input) : (s.takeInput x rest).cfg = s.cfg := rfl
@[simp] theorem State.takeInput_mem (s : State) (x : Input) (rest : List Input) : (s.takeInput x rest).mem = s.mem := rfl
@[simp] theorem State.takeInput_stkpos (s : State) (x : Input) (rest : List Input) : (s.takeInput x rest).stkpos = s.stkpos := rfl
@[simp] theorem State.takeInput_segmask (s : State) (x : Input) (rest : List Input) : (s.takeInput x rest).segmask = s.segmask := rfl
@[simp] theorem State.takeInput_dpbit (s : State) (x : Input) (rest : List Input) : (s.takeInput x rest).dpbit = s.dpbit := rfl
@[simp] theorem State.takeInput_cursor (s : State) (x : Input) (rest : List Input) : (s.takeInput x rest).cursor = s.cursor := rfl
@[simp] theorem State.takeInput_word (s : State) (x : Input) (rest : List Input) : (s.takeInput x rest).word = s.word := rfl
@[simp] theorem State.takeInput_phase (s : State) (x : Input) (rest : List Input) : (s.takeInput x rest).phase = s.phase := rfl
@[simp] theorem State.takeInput_bitcnt (s : State) (x : Input) (rest : List Input) : (s.takeInput x rest).bitcnt = s.bitcnt := rfl
@[simp] theorem State.takeInput_run (s : State) (x : Input) (rest : List Input) : (s.takeInput x rest).run = s.run := rfl
@[simp] theorem State.takeInput_mask (s : State) (x : Input) (rest : List Input) : (s.takeInput x rest).mask = s.mask := rfl
@[simp] theorem State.takeInput_tif (s : State) (x : Input) (rest : List Input) : (s.takeInput x rest).tif = s.tif := rfl
@[simp] theorem State.takeInput_insvc (s : State) (x : Input) (rest : List Input) : (s.takeInput x rest).insvc = s.insvc := rfl
@[simp] theorem State.takeInput_tcnt (s : State) (x : Input) (rest : List Input) : (s.takeInput x rest).tcnt = s.tcnt := rfl
@[simp] theorem State.takeInput_wires (s : State) (x : Input) (rest : List Input) : (s.takeInput x rest).wires = s.wires := rfl
@[simp] theorem State.takeInput_trace (s : State) (x : Input) (rest : List Input) : (s.takeInput x rest).trace = s.trace := rfl
@[simp] theorem State.takeInput_resp (s : State) (x : Input) (rest : List Input) : (s.takeInput x rest).resp = if x.isCommand then none else s.resp := rfl
@[simp] theorem State.takeInput_inputs (s : State) (x : Input) (rest : List Input) : (s.takeInput x rest).inputs = rest := rfl

/-! ## `stepShiftOne`: one bit of step 4 (R184) -/

@[simp] theorem stepShiftOne_cfg (s : State) (k : Nat) : (stepShiftOne s k).cfg = s.cfg := rfl
@[simp] theorem stepShiftOne_mem (s : State) (k : Nat) : (stepShiftOne s k).mem = s.mem := rfl
@[simp] theorem stepShiftOne_stkpos (s : State) (k : Nat) : (stepShiftOne s k).stkpos = s.stkpos := rfl
@[simp] theorem stepShiftOne_segmask (s : State) (k : Nat) : (stepShiftOne s k).segmask = s.segmask := rfl
@[simp] theorem stepShiftOne_dpbit (s : State) (k : Nat) : (stepShiftOne s k).dpbit = s.dpbit := rfl
@[simp] theorem stepShiftOne_cursor (s : State) (k : Nat) : (stepShiftOne s k).cursor = s.cursor := rfl
@[simp] theorem stepShiftOne_word (s : State) (k : Nat) : (stepShiftOne s k).word = s.word := rfl
@[simp] theorem stepShiftOne_phase (s : State) (k : Nat) : (stepShiftOne s k).phase = (if k = 0 then .latchPulse else .shift) := rfl
@[simp] theorem stepShiftOne_bitcnt (s : State) (k : Nat) : (stepShiftOne s k).bitcnt = BitVec.ofNat 5 k := rfl
@[simp] theorem stepShiftOne_run (s : State) (k : Nat) : (stepShiftOne s k).run = s.run := rfl
@[simp] theorem stepShiftOne_mask (s : State) (k : Nat) : (stepShiftOne s k).mask = s.mask := rfl
@[simp] theorem stepShiftOne_tif (s : State) (k : Nat) : (stepShiftOne s k).tif = s.tif := rfl
@[simp] theorem stepShiftOne_insvc (s : State) (k : Nat) : (stepShiftOne s k).insvc = s.insvc := rfl
@[simp] theorem stepShiftOne_tcnt (s : State) (k : Nat) : (stepShiftOne s k).tcnt = s.tcnt := rfl
@[simp] theorem stepShiftOne_wires (s : State) (k : Nat) : (stepShiftOne s k).wires = ((s.wires.drive ⟨.data, s.word.getLsbD k⟩).drive ⟨.sclk, true⟩).drive ⟨.sclk, false⟩ := rfl
@[simp] theorem stepShiftOne_trace (s : State) (k : Nat) : (stepShiftOne s k).trace = s.trace ++ [⟨.data, s.word.getLsbD k⟩] ++ [⟨.sclk, true⟩] ++ [⟨.sclk, false⟩] := rfl
@[simp] theorem stepShiftOne_resp (s : State) (k : Nat) : (stepShiftOne s k).resp = s.resp := rfl
@[simp] theorem stepShiftOne_inputs (s : State) (k : Nat) : (stepShiftOne s k).inputs = s.inputs := rfl

/-! ## `stepRearm`: step 1 (R181) -/

@[simp] theorem stepRearm_cfg (s : State) : (stepRearm s).cfg = s.cfg := rfl
@[simp] theorem stepRearm_mem (s : State) : (stepRearm s).mem = s.mem := rfl
@[simp] theorem stepRearm_stkpos (s : State) : (stepRearm s).stkpos = s.stkpos := rfl
@[simp] theorem stepRearm_segmask (s : State) : (stepRearm s).segmask = s.segmask := rfl
@[simp] theorem stepRearm_dpbit (s : State) : (stepRearm s).dpbit = s.dpbit := rfl
@[simp] theorem stepRearm_cursor (s : State) : (stepRearm s).cursor = s.cursor := rfl
@[simp] theorem stepRearm_word (s : State) : (stepRearm s).word = s.word := rfl
@[simp] theorem stepRearm_phase (s : State) : (stepRearm s).phase = .latchLow := rfl
@[simp] theorem stepRearm_bitcnt (s : State) : (stepRearm s).bitcnt = s.bitcnt := rfl
@[simp] theorem stepRearm_run (s : State) : (stepRearm s).run = s.run := rfl
@[simp] theorem stepRearm_mask (s : State) : (stepRearm s).mask = s.mask := rfl
@[simp] theorem stepRearm_tif (s : State) : (stepRearm s).tif = s.tif := rfl
@[simp] theorem stepRearm_insvc (s : State) : (stepRearm s).insvc = s.insvc := rfl
@[simp] theorem stepRearm_tcnt (s : State) : (stepRearm s).tcnt = s.cfg.reload := rfl
@[simp] theorem stepRearm_wires (s : State) : (stepRearm s).wires = s.wires := rfl
@[simp] theorem stepRearm_trace (s : State) : (stepRearm s).trace = s.trace := rfl
@[simp] theorem stepRearm_resp (s : State) : (stepRearm s).resp = s.resp := rfl
@[simp] theorem stepRearm_inputs (s : State) : (stepRearm s).inputs = s.inputs := rfl

/-! ## `stepLatchLow`: step 2 (R182) -/

@[simp] theorem stepLatchLow_cfg (s : State) : (stepLatchLow s).cfg = s.cfg := rfl
@[simp] theorem stepLatchLow_mem (s : State) : (stepLatchLow s).mem = s.mem := rfl
@[simp] theorem stepLatchLow_stkpos (s : State) : (stepLatchLow s).stkpos = s.stkpos := rfl
@[simp] theorem stepLatchLow_segmask (s : State) : (stepLatchLow s).segmask = s.segmask := rfl
@[simp] theorem stepLatchLow_dpbit (s : State) : (stepLatchLow s).dpbit = s.dpbit := rfl
@[simp] theorem stepLatchLow_cursor (s : State) : (stepLatchLow s).cursor = s.cursor := rfl
@[simp] theorem stepLatchLow_word (s : State) : (stepLatchLow s).word = s.word := rfl
@[simp] theorem stepLatchLow_phase (s : State) : (stepLatchLow s).phase = .compose := rfl
@[simp] theorem stepLatchLow_bitcnt (s : State) : (stepLatchLow s).bitcnt = s.bitcnt := rfl
@[simp] theorem stepLatchLow_run (s : State) : (stepLatchLow s).run = s.run := rfl
@[simp] theorem stepLatchLow_mask (s : State) : (stepLatchLow s).mask = s.mask := rfl
@[simp] theorem stepLatchLow_tif (s : State) : (stepLatchLow s).tif = s.tif := rfl
@[simp] theorem stepLatchLow_insvc (s : State) : (stepLatchLow s).insvc = s.insvc := rfl
@[simp] theorem stepLatchLow_tcnt (s : State) : (stepLatchLow s).tcnt = s.tcnt := rfl
@[simp] theorem stepLatchLow_wires (s : State) : (stepLatchLow s).wires = s.wires.drive ⟨.latch, false⟩ := rfl
@[simp] theorem stepLatchLow_trace (s : State) : (stepLatchLow s).trace = s.trace ++ [⟨.latch, false⟩] := rfl
@[simp] theorem stepLatchLow_resp (s : State) : (stepLatchLow s).resp = s.resp := rfl
@[simp] theorem stepLatchLow_inputs (s : State) : (stepLatchLow s).inputs = s.inputs := rfl

/-! ## `stepLatchPulse`: step 5 (R186) -/

@[simp] theorem stepLatchPulse_cfg (s : State) : (stepLatchPulse s).cfg = s.cfg := rfl
@[simp] theorem stepLatchPulse_mem (s : State) : (stepLatchPulse s).mem = s.mem := rfl
@[simp] theorem stepLatchPulse_stkpos (s : State) : (stepLatchPulse s).stkpos = s.stkpos := rfl
@[simp] theorem stepLatchPulse_segmask (s : State) : (stepLatchPulse s).segmask = s.segmask := rfl
@[simp] theorem stepLatchPulse_dpbit (s : State) : (stepLatchPulse s).dpbit = s.dpbit := rfl
@[simp] theorem stepLatchPulse_cursor (s : State) : (stepLatchPulse s).cursor = s.cursor := rfl
@[simp] theorem stepLatchPulse_word (s : State) : (stepLatchPulse s).word = s.word := rfl
@[simp] theorem stepLatchPulse_phase (s : State) : (stepLatchPulse s).phase = .advance := rfl
@[simp] theorem stepLatchPulse_bitcnt (s : State) : (stepLatchPulse s).bitcnt = s.bitcnt := rfl
@[simp] theorem stepLatchPulse_run (s : State) : (stepLatchPulse s).run = s.run := rfl
@[simp] theorem stepLatchPulse_mask (s : State) : (stepLatchPulse s).mask = s.mask := rfl
@[simp] theorem stepLatchPulse_tif (s : State) : (stepLatchPulse s).tif = s.tif := rfl
@[simp] theorem stepLatchPulse_insvc (s : State) : (stepLatchPulse s).insvc = s.insvc := rfl
@[simp] theorem stepLatchPulse_tcnt (s : State) : (stepLatchPulse s).tcnt = s.tcnt := rfl
@[simp] theorem stepLatchPulse_wires (s : State) : (stepLatchPulse s).wires = (s.wires.drive ⟨.latch, true⟩).drive ⟨.latch, false⟩ := rfl
@[simp] theorem stepLatchPulse_trace (s : State) : (stepLatchPulse s).trace = s.trace ++ [⟨.latch, true⟩] ++ [⟨.latch, false⟩] := rfl
@[simp] theorem stepLatchPulse_resp (s : State) : (stepLatchPulse s).resp = s.resp := rfl
@[simp] theorem stepLatchPulse_inputs (s : State) : (stepLatchPulse s).inputs = s.inputs := rfl

/-! ## `stepAdvance`: step 6 and the exit (R187, R247) -/

@[simp] theorem stepAdvance_cfg (s : State) : (stepAdvance s).cfg = s.cfg := rfl
@[simp] theorem stepAdvance_mem (s : State) : (stepAdvance s).mem = s.mem := rfl
@[simp] theorem stepAdvance_stkpos (s : State) : (stepAdvance s).stkpos = s.stkpos := rfl
@[simp] theorem stepAdvance_segmask (s : State) : (stepAdvance s).segmask = s.segmask := rfl
@[simp] theorem stepAdvance_dpbit (s : State) : (stepAdvance s).dpbit = s.dpbit := rfl
@[simp] theorem stepAdvance_cursor (s : State) : (stepAdvance s).cursor = (s.cursor + 1) % s.cfg.n := rfl
@[simp] theorem stepAdvance_word (s : State) : (stepAdvance s).word = s.word := rfl
@[simp] theorem stepAdvance_phase (s : State) : (stepAdvance s).phase = .idle := rfl
@[simp] theorem stepAdvance_bitcnt (s : State) : (stepAdvance s).bitcnt = s.bitcnt := rfl
@[simp] theorem stepAdvance_run (s : State) : (stepAdvance s).run = s.run := rfl
@[simp] theorem stepAdvance_mask (s : State) : (stepAdvance s).mask = s.mask := rfl
@[simp] theorem stepAdvance_tif (s : State) : (stepAdvance s).tif = s.tif := rfl
@[simp] theorem stepAdvance_insvc (s : State) : (stepAdvance s).insvc = false := rfl
@[simp] theorem stepAdvance_tcnt (s : State) : (stepAdvance s).tcnt = s.tcnt := rfl
@[simp] theorem stepAdvance_wires (s : State) : (stepAdvance s).wires = s.wires := rfl
@[simp] theorem stepAdvance_trace (s : State) : (stepAdvance s).trace = s.trace := rfl
@[simp] theorem stepAdvance_resp (s : State) : (stepAdvance s).resp = s.resp := rfl
@[simp] theorem stepAdvance_inputs (s : State) : (stepAdvance s).inputs = s.inputs := rfl

end Sys2Proof.Machine
end

