-- ==== Sys2Proof/Laws/Ops.lean ====
section
/-! SUPPORT. What each shared operation can do, said once: element access, lines and chain, the scan steps, one turn. -/

namespace Sys2Proof.Machine

/-! ## Element access -/

@[simp] theorem Memory.space_withSpace_same (m : Memory) (sp : Space) (ws : List Word) :
    (m.withSpace sp ws).space sp = ws := by cases sp <;> rfl

theorem Memory.space_withSpace_ne (m : Memory) {sp sp' : Space} (ws : List Word) (h : sp' ≠ sp) :
    (m.withSpace sp ws).space sp' = m.space sp' := by
  cases sp <;> cases sp' <;> first | rfl | exact absurd rfl h

/-- Read after write at the same element. -/
theorem State.memRead_storeElement_same (s : State) (sp : Space) (i : Nat) (v : Word)
    (h : i < (s.mem.space sp).length) : (s.storeElement sp i v).memRead sp i = some v := by
  simp [State.memRead, h]

/-- A write leaves every other element alone. -/
theorem State.memRead_storeElement_other (s : State) (sp sp' : Space) (i j : Nat) (v : Word)
    (h : sp' ≠ sp ∨ j ≠ i) : (s.storeElement sp i v).memRead sp' j = s.memRead sp' j := by
  by_cases hs : sp' = sp
  · subst hs
    have hj : j ≠ i := h.resolve_left (fun h => h rfl)
    simp [State.memRead, Ne.symm hj]
  · simp [State.memRead, Memory.space_withSpace_ne _ _ hs]

/-- All that `memWrite` can do. -/
theorem State.memWrite_next {s t : State} {sp : Space} {i : Nat} {v : Word} :
    s.memWrite sp i v = .next t ↔ i < (s.mem.space sp).length ∧ t = s.storeElement sp i v := by
  unfold State.memWrite
  split
  · next h => simp [h, eq_comm]
  · next h => simp [h]

/-- A write keeps the canonical form of the memory. -/
theorem Memory.wf_storeElement (s : State) (sp : Space) (i : Nat) (v : Word) (c : Config) (h : s.mem.wf c = true) :
    (s.storeElement sp i v).mem.wf c = true := by
  cases sp <;> simp_all [Memory.wf, Memory.withSpace, Memory.space]

/-- So does replacing a space by another of its length. -/
theorem Memory.wf_withSpace (m : Memory) (sp : Space) (ws : List Word) (c : Config) (h : m.wf c = true)
    (hl : ws.length = (m.space sp).length) : (m.withSpace sp ws).wf c = true := by
  cases sp <;> simp_all [Memory.wf, Memory.withSpace, Memory.space]

/-- `BUILD`'s table has one entry per digit value. -/
@[simp] theorem segmentTable_length (stkpos : Vector (BitVec 4) 8) (segmask : Word) (glyphs : List (List Stroke)) :
    (segmentTable stkpos segmask glyphs).length = glyphs.length := by simp [segmentTable]

/-- The memory at construction is in canonical form. -/
theorem constructed_mem_wf (c : Config) (d : ResetDraw) : (State.constructed c d).mem.wf c = true := by
  simp [State.constructed, Memory.wf, Config.n, Config.nglyph]

/-- The memory at reset is in canonical form. -/
theorem reset_mem_wf : State.reset.mem.wf State.reset.cfg = true := constructed_mem_wf _ _

/-! ## Lines and chain -/

@[simp] theorem Wires.replay_nil (w : Wires) : w.replay [] = w := rfl

@[simp] theorem Wires.replay_cons (w : Wires) (e : LineEvent) (es : List LineEvent) :
    w.replay (e :: es) = (w.drive e).replay es := rfl

theorem Wires.replay_append (w : Wires) (es fs : List LineEvent) :
    w.replay (es ++ fs) = (w.replay es).replay fs := by
  induction es generalizing w with
  | nil => rfl
  | cons e es ih => exact ih (w.drive e)

/-! ## The scan steps -/

/-- All that step 3 can do (R183). -/
theorem stepCompose_some {s t : State} :
    stepCompose s = some t ↔ ∃ m e, s.memRead .selrom s.cursor = some m ∧ s.memRead .buf s.cursor = some e ∧
      t = { s with word := m ||| ~~~e, bitcnt := 16#5, phase := .shift } := by
  unfold stepCompose
  cases s.memRead .selrom s.cursor <;> cases s.memRead .buf s.cursor <;> simp [eq_comm]

/-- A shift touches lines, chain, trace, `BITCNT` and `PHASE` only. -/
theorem stepShift_frame (k : Nat) (s : State) :
    ∃ w tr b p, stepShift k s = { s with wires := w, trace := tr, bitcnt := b, phase := p } := by
  induction k generalizing s with
  | zero => exact ⟨s.wires, s.trace, s.bitcnt, s.phase, rfl⟩
  | succ k ih =>
    obtain ⟨w, tr, b, p, h⟩ := ih (stepShiftOne s k)
    exact ⟨w, tr, b, p, by simp only [stepShift, h, stepShiftOne_cfg, stepShiftOne_mem, stepShiftOne_stkpos,
      stepShiftOne_segmask, stepShiftOne_dpbit, stepShiftOne_cursor, stepShiftOne_word, stepShiftOne_run,
      stepShiftOne_mask, stepShiftOne_tif, stepShiftOne_insvc, stepShiftOne_tcnt, stepShiftOne_resp,
      stepShiftOne_inputs]⟩

/-- All that an invocation can do: both reads succeed, and the steps follow one another (R180). -/
theorem invocation_next {s t : State} :
    invocation s = .next t ↔ ∃ u, stepCompose (stepLatchLow (stepRearm s.takeInterrupt)) = some u ∧
      t = stepAdvance (stepLatchPulse (stepShift 16 u)) := by
  unfold invocation
  cases stepCompose (stepLatchLow (stepRearm s.takeInterrupt)) <;> simp [eq_comm]

/-! ## What a word of the chain shows -/

/-- A position is enabled exactly when it has a mask, the mask names a line and the word asserts all its lines. -/
theorem enabledBy_iff (s : State) (q : Word) (p : Nat) :
    enabledBy s q p = true ↔ ∃ m, s.memRead .selrom p = some m ∧ m ≠ 0#16 ∧ q &&& m = m := by
  unfold enabledBy
  cases s.memRead .selrom p <;> simp

/-- Whether a position is enabled depends on the select masks alone. -/
theorem enabledBy_congr {s t : State} (h : t.mem.selrom = s.mem.selrom) (q : Word) (p : Nat) :
    enabledBy t q p = enabledBy s q p := by
  simp [enabledBy, State.memRead, Memory.space, h]

@[simp] theorem shownBy_isSome (s : State) (q : Word) (p : Nat) : (shownBy s q p).isSome = enabledBy s q p := by
  unfold shownBy
  split <;> simp [*]

/-- The display, position by position. -/
theorem State.display_getElem? (s : State) {p : Nat} (h : p < s.cfg.n) : s.display[p]? = some (shownBy s s.wires.q p) := by
  simp [State.display, h]

/-! ## The response port and the taking of a command -/

theorem State.takeInput_command (s : State) (w : HostWord) (rest : List Input) :
    s.takeInput (.command w) rest = { s.emptyPort with inputs := rest } := rfl

/-- All that a sequence of two outcomes can do. -/
theorem andThen_next {o : Answer State} {f : State → Answer State} {t : State} :
    andThen o f = .next t ↔ ∃ u, o = .next u ∧ f u = .next t := by
  cases o <;> simp [andThen]

/-- Operations issued one after the other: the first ones, then the others. -/
theorem issueAll_append (is js : List Instr) (s : State) :
    issueAll (is ++ js) s = andThen (issueAll is s) (issueAll js) := by
  induction is generalizing s with
  | nil => rfl
  | cons i is ih =>
    simp only [List.cons_append, issueAll]
    cases issue i s with
    | next t => exact ih t
    | fault e => rfl
    | refused r => rfl

/-! ## One turn -/

/-- All that a turn can do. -/
theorem turn_cases (x : Input) (s : State) :
    (∃ i t, decodeInput x = .ok i ∧ exec i s = .next t ∧ turn x s = .next t) ∨
    (∃ i r, decodeInput x = .ok i ∧ exec i s = .refused r ∧ turn x s = afterRefusal s r) ∨
    (∃ e, decodeInput x = .error e ∧ turn x s = .next s) := by
  unfold turn
  cases h : decodeInput x with
  | error e => exact .inr (.inr ⟨e, rfl, rfl⟩)
  | ok i =>
    cases h' : exec i s with
    | next t => exact .inl ⟨i, t, rfl, h', by simp [afterExec, h']⟩
    | refused r => exact .inr (.inl ⟨i, r, rfl, h', by simp [afterExec, h']⟩)
    | fault f => cases f

/-- With an empty schedule a step rests. -/
theorem step_nil {s : State} (h : s.inputs = []) : step s = .next s := by simp [step, h]

/-- Otherwise it is one turn. -/
theorem step_cons {s : State} {x : Input} {rest : List Input} (h : s.inputs = x :: rest) :
    step s = turn x (s.takeInput x rest) := by simp [step, h]

end Sys2Proof.Machine
end

