-- ==== Sys2Proof/Laws/PerInstr.lean ====
section
/-! SUPPORT. The family OpcodeField: the command word of an operation carries its opcode and a zero `z` field (spec
30_encoding.md R98, R100), one lemma per constructor. -/

namespace Sys2Proof.Laws

/-- The operation code of R100; the two events have none. -/
def OpcodeField.opcode : Instr → Nat
  | .wrbuf _ _ => 1
  | .rdseg _ => 2
  | .di => 3
  | .ei => 4
  | .start => 5
  | .stop => 6
  | .qrate => 7
  | .cfgsel _ _ => 8
  | .cfgstk _ _ => 9
  | .build => 10
  | .tick => 0
  | .tclk => 0

/-- Every command word of the operation has its opcode in `op` and zero in `z`. -/
def OpcodeField.Statement (i : Instr) : Prop :=
  ∀ w, encode i = .command w → opField w = BitVec.ofNat 4 (OpcodeField.opcode i) ∧ zField w = 0#8

/-- The fields of a formatted word. -/
theorem formatH_fields (op a : Nat) (imm : Word) :
    opField (formatH op a imm) = BitVec.ofNat 4 op ∧ zField (formatH op a imm) = 0#8 := by
  constructor
  · ext i hi
    simp only [opField, formatH, BitVec.getElem_extractLsb', BitVec.getLsbD_append]
    have h1 : ¬ 28 + i < 16 := by omega
    have h2 : ¬ 28 + i - 16 < 8 := by omega
    have h3 : ¬ 28 + i - 16 - 8 < 4 := by omega
    simp only [h1, h2, h3, if_false]
    have h4 : 28 + i - 16 - 8 - 4 = i := by omega
    rw [h4, BitVec.getLsbD_eq_getElem hi]
  · ext i hi
    simp only [zField, formatH, BitVec.getElem_extractLsb', BitVec.getLsbD_append]
    have h1 : ¬ 16 + i < 16 := by omega
    have h2 : 16 + i - 16 < 8 := by omega
    simp only [h1, h2, if_true, if_false]
    simp

theorem OpcodeField.of_formatH {i : Instr} {a : Nat} {imm : Word}
    (h : encode i = .command (formatH (OpcodeField.opcode i) a imm)) : OpcodeField.Statement i := by
  intro w hw
  obtain rfl : formatH _ a imm = w := Input.command.inj (h.symm.trans hw)
  exact formatH_fields _ _ _

theorem OpcodeField.wrbuf (p : Nat) (w : Word) : OpcodeField.Statement (.wrbuf p w) := of_formatH rfl
theorem OpcodeField.rdseg (d : Nat) : OpcodeField.Statement (.rdseg d) := of_formatH rfl
theorem OpcodeField.di : OpcodeField.Statement .di := of_formatH rfl
theorem OpcodeField.ei : OpcodeField.Statement .ei := of_formatH rfl
theorem OpcodeField.start : OpcodeField.Statement .start := of_formatH rfl
theorem OpcodeField.stop : OpcodeField.Statement .stop := of_formatH rfl
theorem OpcodeField.qrate : OpcodeField.Statement .qrate := of_formatH rfl
theorem OpcodeField.cfgsel (p : Nat) (m : Word) : OpcodeField.Statement (.cfgsel p m) := of_formatH rfl
theorem OpcodeField.cfgstk (s k : Nat) : OpcodeField.Statement (.cfgstk s k) := of_formatH rfl
theorem OpcodeField.build : OpcodeField.Statement .build := of_formatH rfl
theorem OpcodeField.tick : OpcodeField.Statement .tick := fun _ h => by simp [encode] at h
theorem OpcodeField.tclk : OpcodeField.Statement .tclk := fun _ h => by simp [encode] at h

end Sys2Proof.Laws
end

