-- ==== Sys2Proof/Tests/Slice0.lean ====
section
/-! SUPPORT. Our own tests: expected values are those of spec 95_test_vectors.md (sections named in the comments) or of the
rules' own examples; then, for each statement with hypotheses, a concrete witness that meets them. -/

namespace Sys2Proof.Tests

open Sys2Proof.Machine

/-! ## Small states -/

/-- The reference configuration with the one open parameter set. -/
def cfg : Config := { Config.reference with dpLitLevel := false }

/-- Every buffer entry shows digit 2; the chain holds the A5A5 of section 2.5. -/
def draw : ResetDraw := { buf := fun _ => 0xFF24#16, word := 0#16, sr := 0xA5A5#16, q := 0#16 }

/-- After construction. -/
def stopped : State := State.constructed cfg draw

/-- Armed, with the flags and the count of section 2.7. -/
def timed (run mask tif : Bool) (tcnt : BitVec 8) : State := { stopped with run := run, mask := mask, tif := tif, tcnt := tcnt }

/-- A `TICK` is enabled at a cursor with an entry. -/
def ready (c : Nat) (e : Word) : State := { (timed true false true 17#8).storeElement .buf c e with cursor := c }

/-- A check on the next state; false on a fault or a refusal. -/
def after (o : Answer State) (f : State → Bool) : Bool :=
  match o with
  | .next t => f t
  | .fault _ => false
  | .refused _ => false

/-- The refusal of an outcome. -/
def reason (o : Answer State) : Option Refusal :=
  match o with
  | .next _ => none
  | .fault _ => none
  | .refused r => some r

/-! ## Well-formedness: an ill-formed term for each check -/

theorem test_illformed_operands :
    (Instr.wrbuf 16 0#16).wellFormed = false ∧ (Instr.rdseg 16).wellFormed = false ∧
    (Instr.cfgsel 16 0#16).wellFormed = false ∧ (Instr.cfgstk 16 0).wellFormed = false ∧
    (Instr.cfgstk 0 16).wellFormed = false := by decide

theorem test_illegal_configurations :
    ({ cfg with sel := [] }).legal = false ∧ ({ cfg with sel := List.replicate 17 1#16 }).legal = false ∧
    ({ cfg with glyph := cfg.glyph.take 9 }).legal = false ∧ ({ cfg with dppos := 6#4 }).legal = false ∧
    ({ cfg with prescaler := 0 }).legal = false ∧ ({ cfg with fClock := 0 }).legal = false ∧
    ({ cfg with valw := 0 }).legal = false ∧ ({ cfg with pins := ⟨0, 1, 1⟩ }).legal = false := by decide

theorem test_noncanonical_configurations :
    cfg.legal = true ∧ cfg.canonical = true ∧ cfg.documentedGlyphs = true ∧
    ({ cfg with sel := [0x0300#16] }).canonical = false ∧ ({ cfg with sel := [0x0100#16, 0x0100#16] }).canonical = false ∧
    ({ cfg with sel := [0x0001#16] }).canonical = false ∧ ({ cfg with dppos := 6#4 }).canonical = false ∧
    ({ cfg with glyph := [] }).documentedGlyphs = false := by decide

/-! ## Decoding: words written out from R100 (sections 2.1 to 2.9) -/

theorem test_decode_wrbuf : decode 0b0001_0011_00000000_1111111100100100#32 = .ok (.wrbuf 3 0xFF24#16) := by decide
theorem test_decode_rdseg : decode 0b0010_0010_00000000_0000000000000000#32 = .ok (.rdseg 2) := by decide
theorem test_decode_di : decode 0b0011_0000_00000000_0000000000000000#32 = .ok .di := by decide
theorem test_decode_ei : decode 0b0100_0000_00000000_0000000000000000#32 = .ok .ei := by decide
theorem test_decode_start : decode 0b0101_0000_00000000_0000000000000000#32 = .ok .start := by decide
theorem test_decode_stop : decode 0b0110_0000_00000000_0000000000000000#32 = .ok .stop := by decide
theorem test_decode_qrate : decode 0b0111_0000_00000000_0000000000000000#32 = .ok .qrate := by decide
theorem test_decode_cfgsel : decode 0b1000_0111_00000000_1000000000000000#32 = .ok (.cfgsel 7 0x8000#16) := by decide
theorem test_decode_cfgstk : decode 0b1001_0110_00000000_0000000000001110#32 = .ok (.cfgstk 6 14) := by decide
theorem test_decode_build : decode 0b1010_0000_00000000_0000000000000000#32 = .ok .build := by decide
theorem test_decode_events : decodeInput .tick = .ok .tick ∧ decodeInput .tclk = .ok .tclk := ⟨rfl, rfl⟩

/-- The refused words of sections 2.1, 2.2, 2.3, 2.7, 2.8 and 2.9. -/
theorem test_decode_refused :
    ([0x00000000#32, 0xB0000000#32, 0xF0000000#32, 0xFFFFFFFF#32, 0x22000001#32, 0x22010000#32, 0x90000010#32,
      0xA0000001#32, 0x1301FF24#32, 0x30000001#32, 0x41000000#32, 0x50010000#32, 0x6000FFFF#32, 0x70000001#32,
      0x10010000#32, 0x80FF0000#32, 0x32000000#32, 0xA1000000#32].all fun w =>
        match decode w with
        | .ok _ => false
        | .error _ => true) = true := by decide

theorem test_encode : encode (.wrbuf 3 0xFF24#16) = .command 0x1300FF24#32 ∧
    encode (.cfgstk 7 15) = .command 0x9700000F#32 := by decide

theorem test_table_words : decodeTableWord 32 0x87008000 = some (.cfgsel 7 0x8000#16) ∧
    decodeTableWord 8 1 = some .tick ∧ decodeTableWord 32 0 = none := by decide

/-! ## Operations -/

/-- Section 2.3: `WRBUF 3, 0xFF24`; `WRBUF 8` is out of range. -/
theorem test_wrbuf : after (exec (.wrbuf 3 0xFF40#16) stopped) (fun t => t.mem.buf[3]? == some 0xFF40#16 &&
    t.mem.buf[2]? == some 0xFF24#16) = true ∧ reason (exec (.wrbuf 8 0xFF40#16) stopped) = some .indexRange := by decide

/-- Section 2.1: `RDSEG 2 -> 0x0000FF24`; with ten entries `RDSEG 10` is refused. -/
theorem test_rdseg : after (exec (.rdseg 2) stopped) (fun t => t.resp == some 0x0000FF24#32) = true ∧
    reason (exec (.rdseg 10) (State.constructed { cfg with glyph := cfg.glyph.take 10 } draw)) = some .indexRange := by
  decide

/-- Section 2.2: `CFGSEL 7, 0x8000`, and the refusals. -/
theorem test_cfgsel : after (exec (.cfgsel 7 0x0300#16) stopped) (fun t => t.mem.selrom[7]? == some 0x0300#16 &&
    t.segmask == 0xFF00#16) = true ∧ reason (exec (.cfgsel 8 1#16) stopped) = some .indexRange ∧
    reason (exec (.cfgsel 8 1#16) (timed true false false 6#8)) = some .configWhileRunning := by decide

/-- Section 2.2: `CFGSTK DP, 15`; `DPBIT` waits for `BUILD`; selector 8 is refused. -/
theorem test_cfgstk : after (exec (.cfgstk 7 15) stopped) (fun t => pointPos t.stkpos == 15#4 && t.dpbit == 0x0080#16 &&
    strokePos t.stkpos .g == 6#4) = true ∧ reason (exec (.cfgstk 8 0) stopped) = some .indexRange := by decide

/-- Section 2.1, second table: selects in the low byte, strokes at bits 8..14, DP at bit 15. -/
def lowSelects : State := { stopped with
  mem := { stopped.mem with selrom := [0x01#16, 0x02#16, 0x04#16, 0x08#16, 0x10#16, 0x20#16, 0x40#16, 0x80#16] }
  stkpos := #v[8#4, 9#4, 10#4, 11#4, 12#4, 13#4, 14#4, 15#4] }

theorem test_build : after (exec .build lowSelects) (fun t => t.segmask == 0x00FF#16 && t.dpbit == 0x8000#16 &&
    t.mem.segrom == [0x40FF#16, 0x79FF#16, 0x24FF#16, 0x30FF#16, 0x19FF#16, 0x12FF#16, 0x02FF#16, 0x78FF#16,
                     0x00FF#16, 0x10FF#16, 0x08FF#16, 0x03FF#16, 0x46FF#16, 0x21FF#16, 0x06FF#16, 0x0EFF#16]) = true := by
  decide

/-- The table of R121. -/
theorem test_reset_table : stopped.mem.segrom =
    [0xFF40#16, 0xFF79#16, 0xFF24#16, 0xFF30#16, 0xFF19#16, 0xFF12#16, 0xFF02#16, 0xFF78#16,
     0xFF00#16, 0xFF10#16, 0xFF08#16, 0xFF03#16, 0xFF46#16, 0xFF21#16, 0xFF06#16, 0xFF0E#16] := by decide

/-- The state columns of section 2.7. -/
def columns (o : Answer State) : Option (Bool × Bool × Bool × BitVec 8) :=
  match o with
  | .next t => some (t.run, t.mask, t.tif, t.tcnt)
  | .fault _ => none
  | .refused _ => none

theorem test_tclk :
    columns (exec .tclk (timed true false false 255#8)) = some (true, false, true, 0#8) ∧
    columns (exec .tclk (timed true false true 0#8)) = some (true, false, true, 1#8) ∧
    columns (exec .tclk (timed false false false 0#8)) = some (false, false, false, 0#8) := by decide

theorem test_start :
    columns (exec .start (timed false true false 40#8)) = some (true, true, false, 6#8) ∧
    reason (exec .start (timed true false false 6#8)) = some .alreadyRunning := by decide

theorem test_stop : columns (exec .stop (timed true true true 40#8)) = some (false, true, false, 40#8) := by decide

theorem test_di : columns (exec .di (timed true false false 100#8)) = some (true, true, false, 100#8) := by decide

theorem test_ei : columns (exec .ei (timed true true true 0#8)) = some (true, false, true, 0#8) := by decide

/-- Section 2.8: 125 Hz; floor at `RELOAD` 7. -/
theorem test_qrate : after (exec .qrate stopped) (fun t => t.resp == some 125#32) = true ∧
    rateResponse { cfg with reload := 7#8 } = 125#32 := by decide

/-- Section 2.5: `CURSOR` 3, FF24 sends 08DB from `SR` = A5A5. -/
theorem test_tick : after (exec .tick (ready 3 0xFF24#16)) (fun t => t.word == 0x08DB#16 && t.wires.sr == 0x08DB#16 &&
    t.wires.q == 0x08DB#16 && t.cursor == 4 && t.tcnt == 6#8 && !t.tif && t.wires.data && t.trace.length == 51) = true := by
  decide

/-- Section 2.5: the cursor wraps at 7; under the mask no `TICK` occurs. -/
theorem test_tick_wraps : after (exec .tick (ready 7 0xFF0E#16)) (fun t => t.wires.q == 0x80F1#16 && t.cursor == 0) = true ∧
    columns (exec .tick (timed true true true 3#8)) = some (true, true, true, 3#8) := by decide

/-- Section 2.5: the first nine shifts of 08DB from A5A5. -/
theorem test_chain_shifts : ((stopped.wires.replay ((bitTrace 0x08DB#16 16).take 27)).sr) = 0x4A11#16 := by decide

/-- The positions that the display shows enabled. -/
def enabledDigits (s : State) : List Nat := (List.range s.cfg.n).filter fun p => enabledBy s s.wires.q p

/-- Section 2.5, raw words: FE40 at c = 2 sends 05BF and enables digits 0 and 2, 0000 enables all eight with all strokes. -/
theorem test_display_raw_words :
    after (exec .tick (ready 2 0xFE40#16)) (fun t => t.wires.q == 0x05BF#16 && enabledDigits t == [0, 2]) = true ∧
    after (exec .tick (ready 0 0#16)) (fun t => t.display == List.replicate 8 (some ⟨Stroke.all, true⟩)) = true := by decide

/-- R283: selects on bits 8..11, then `CFGSEL 3, 0x8000` without a `BUILD`: digit 3 lights in the slot of digit 0. -/
def staleTables : State :=
  { State.constructed { cfg with sel := [0x0100#16, 0x0200#16, 0x0400#16, 0x0800#16] } draw with
    mem := { selrom := [0x0100#16, 0x0200#16, 0x0400#16, 0x8000#16], segrom := [], buf := List.replicate 4 0x0F24#16 }
    run := true, tif := true }

theorem test_display_stale_tables : after (exec .tick staleTables) (fun t =>
    enabledDigits t == [0, 3] && t.display[3]? == some (some ⟨[.a, .b, .d, .e, .g], true⟩)) = true := by decide

/-- R165: a render returns nothing; between the `RDSEG` and the `WRBUF` the port carries the pattern. -/
theorem test_render_port : after (renderW 7 none 10 stopped) (fun t => t.resp == none) = true ∧
    after (issueAll [.di, .rdseg 7] stopped) (fun t => t.resp == some 0x0000FF78#32) = true := by decide

/-- Section 2.4: `RENDER1 42, 1, 10`, and the refusals beside it. -/
theorem test_render : after (render1 42 (some 1) 10 stopped) (fun t =>
    t.mem.buf.take 4 == [0xFF40#16, 0xFFC0#16, 0xFF19#16, 0xFF24#16]) = true ∧
    reason (render1 42 none 1 stopped) = some .baseRange ∧ reason (render1 (-1) none 10 stopped) = some .negativeValue := by
  decide

/-- Section 2.4: `RENDER2 42, 1, 10` with panel-relative points. -/
theorem test_render_panel_relative :
    after (render2 42 (some 1) 10 (State.constructed { cfg with dpIndexing := .panelRelative } draw)) (fun t =>
      t.mem.buf.drop 4 == [0xFF40#16, 0xFFC0#16, 0xFF19#16, 0xFF24#16]) = true := by decide

/-- From reset with a table word placed, the very next step runs it. -/
theorem test_fetch : after (step (State.reset.withFetchWord 32 0x50000000)) (fun t => t.run && t.tcnt == 6#8) = true ∧
    after (step (State.reset.withFetchWord 8 1)) (fun t => t.cursor == 1 && t.trace.length == 51) = true := by decide

/-! ## Witnesses: concrete states and operands that meet the hypotheses of each statement, together -/

/-- An outcome is a next state. -/
def isNext (o : Answer State) : Bool := after o fun _ => true

theorem of_isNext {o : Answer State} (h : isNext o = true) : ∃ t, o = .next t := by
  cases o with
  | next t => exact ⟨t, rfl⟩
  | fault f => cases f
  | refused r => exact Bool.noConfusion h

/-- `stopped` with a schedule. -/
def scheduled (is : List Input) : State := { stopped with inputs := is }

/-- The entry of digit 2 with the point, under the cursor at the last position. -/
def readyPoint : State := ready 7 0xFFA4#16

theorem witness_DecodeOfEncodeGivesTheOperation : (Instr.cfgstk 15 15).wellFormed = true ∧
    (Instr.wrbuf 15 0xFFFF#16).wellFormed = true ∧ (Instr.rdseg 0).wellFormed = true := by decide
theorem witness_EncodeOfDecodeGivesTheInput : decodeInput (.command 0x1F00FFFF#32) = .ok (.wrbuf 15 0xFFFF#16) ∧
    decodeInput (.command 0x9000000F#32) = .ok (.cfgstk 0 15) := by decide
theorem witness_ReservedEncodingsAreRefused : decode 0x90000010#32 = .error .nonZeroField ∧
    (scheduled [.command 0x90000010#32]).inputs = .command 0x90000010#32 :: [] ∧
    decode 0xB0000000#32 = .error .reservedOpcode := by decide
theorem witness_OpcodeRowsDoNotOverlap :
    (⟨0x90000000#32, 0xF0FFFFF0#32⟩ : OpcodeRow) ∈ opcodeMap ∧
    (⟨0x90000000#32, 0xF0FFFFF0#32⟩ : OpcodeRow).selects 0x9F00000F#32 = true := by decide
theorem witness_StepRunsTheDecodedOperation : decodeInput (.command 0x18000000#32) = .ok (.wrbuf 8 0#16) ∧
    (scheduled [.command 0x18000000#32]).inputs = .command 0x18000000#32 :: [] ∧
    reason (exec (.wrbuf 8 0#16) ((scheduled [.command 0x18000000#32]).takeInput (.command 0x18000000#32) [])) =
      some .indexRange ∧
    decodeInput (.command 0x17000000#32) = .ok (.wrbuf 7 0#16) ∧
    isNext (exec (.wrbuf 7 0#16) ((scheduled [.command 0x17000000#32]).takeInput (.command 0x17000000#32) [])) = true := by
  decide
theorem witness_EmptyScheduleRests : State.reset.inputs = [] := rfl
theorem witness_RefusedOperationChangesNothing : (scheduled [.command 0#32]).Inv ∧
    (scheduled [.command 0#32]).headRefusal = some .reservedEncoding ∧
    (scheduled [.command 0x18000000#32]).headRefusal = some .indexRange := by decide
theorem witness_StepKeepsInvariant : readyPoint.Inv ∧ ∃ t, step { readyPoint with inputs := [.tick] } = .next t :=
  ⟨by decide, of_isNext (by decide)⟩
theorem witness_ConstructionHasInvariant : cfg.legal = true ∧ ({ cfg with sel := List.replicate 16 1#16 }).legal = true ∧
    ({ cfg with sel := [1#16] }).legal = true := by decide
theorem witness_ConstructionGivesTheResetValues : cfg.legal = true ∧ (List.replicate 8 0xFFFF#16).length = cfg.n := by decide
theorem witness_ConstructionRefusals : ({ cfg with sel := [] }).n = 0 ∧ cfg.n ≠ 0 ∧
    (Pins.mk 4 4 5).distinct = false := by decide
theorem witness_WrbufWritesOneEntry : stopped.Shaped ∧ stopped.cfg.n ≤ 8 ∧ 7 < stopped.cfg.n := by decide
theorem witness_RdsegReturnsTheStoredEntry : stopped.Shaped ∧ stopped.cfg.nglyph ≤ 16 ∧ 15 < stopped.cfg.nglyph := by decide
theorem witness_CfgselSetsOneMask : stopped.Shaped ∧ stopped.run = false ∧ stopped.cfg.n ≤ 8 ∧ 7 < stopped.cfg.n ∧
    (timed true false false 6#8).Shaped ∧ (timed true false false 6#8).run = true := by decide
theorem witness_CfgstkSetsOnePosition : 15 < 16 ∧ stopped.run = false ∧ (timed true false false 6#8).run = true := by decide
theorem witness_BuildDerivesTheTables : stopped.run = false ∧ (timed true false false 6#8).run = true ∧
    stopped.cfg.glyph[15]? = some [.a, .e, .f, .g] ∧ after (exec .build stopped) (fun t =>
      decide (strokeAll stopped.stkpos &&& t.segmask = 0#16)) = true := by decide
theorem witness_BuiltPatternBits : stopped.cfg.glyph[0]? = some [.a, .b, .c, .d, .e, .f] ∧ 15 < 16 ∧
    after (exec .build stopped) (fun t => t.memRead .segrom 0 == some 0xFF40#16) = true := by decide
theorem witness_IndexOutOfRangeIsRefused : stopped.Inv ∧ stopped.cfg.n ≤ 8 ∧ stopped.cfg.nglyph ≤ 16 ∧
    stopped.run = false := by decide
theorem witness_TclkCounts : stopped.run = false ∧ (timed true false false 255#8).run = true ∧
    (timed true false false 255#8).tcnt = 255#8 ∧ (timed true false false 254#8).tcnt ≠ 255#8 := by decide
theorem witness_StartArmsTheTimer : (timed false true false 40#8).run = false ∧ (timed false true false 40#8).mask = true ∧
    (timed true false false 6#8).run = true := by decide
theorem witness_StopDisablesTheCycle : stopped.Inv ∧ stopped.run = false ∧ isNext (exec .stop stopped) = true := by decide
theorem witness_QrateReturnsTheRate : stopped.cfg.legal = true ∧ stopped.cfg.fClock < 2 ^ 32 ∧
    stopped.cfg.fClock / (stopped.cfg.prescaler * stopped.cfg.n * (256 - stopped.cfg.reload.toNat)) < 2 ^ 32 := by decide
theorem witness_RateGrowsWithReload : cfg.legal = true ∧ (0#8).toNat ≤ (255#8).toNat ∧
    cfg.fClock / (cfg.prescaler * cfg.n * (256 - (255#8).toNat)) < 2 ^ 32 := by decide
theorem witness_ExpiryComesAfterThePeriod : (timed true false false 6#8).run = true ∧
    (timed true false false 6#8).tif = false ∧ (timed true false false 6#8).tcnt = (timed true false false 6#8).cfg.reload := by
  decide
theorem witness_MissedExpiriesGiveOneTick : (timed true false false 6#8).Inv ∧ (timed true false false 6#8).run = true ∧
    256 ≤ 256 := by decide
theorem witness_TickStartsOnlyWhenEnabled : (timed true true true 3#8).irq = false ∧ readyPoint.irq = true := by decide
theorem witness_TickLatchesTheWord : readyPoint.Inv ∧ readyPoint.irq = true := by decide
theorem witness_TickEmitsFiftyOneEvents : (readyPoint.Inv ∧ readyPoint.irq = true ∧ ∃ t, exec .tick readyPoint = .next t) ∧
    (Instr.di ≠ .tick ∧ exec .di stopped = .next { stopped with mask := true }) ∧ 15 < 16 :=
  ⟨⟨by decide, by decide, of_isNext (by decide)⟩, ⟨by decide, rfl⟩, by decide⟩
theorem witness_ChainShiftsOnRisingShiftClock : stopped.wires.sclk = false ∧
    ¬((⟨.data, true⟩ : LineEvent) = ⟨.sclk, true⟩ ∧ stopped.wires.sclk = false) := by decide
theorem witness_ChainLatchesOnRisingLatchClock : stopped.wires.latch = false ∧
    ¬((⟨.latch, false⟩ : LineEvent) = ⟨.latch, true⟩ ∧ stopped.wires.latch = false) ∧
    ((bitTrace 0x08DB#16 16).all fun e => decide (e.line ≠ .latch)) = true := by decide
theorem witness_ChainFollowsTheLineTrace : ∃ t, steps 2 { readyPoint with inputs := [.tick, .tclk] } = .next t :=
  of_isNext (by decide)
theorem witness_CursorCountsInvocations : cfg.legal = true ∧ ({ readyPoint with inputs := [.tick] } : State).Inv ∧
    (∃ t, step { readyPoint with inputs := [.tick] } = .next t) ∧ (∃ t, steps 1 { readyPoint with inputs := [.tick] } = .next t) ∧
    (∃ t, steps 1 { State.constructed cfg draw with inputs := [.tclk] } = .next t) ∧ 7 < 8 ∧ 0 < 7 :=
  ⟨by decide, by decide, of_isNext (by decide), of_isNext (by decide), of_isNext (by decide), by decide, by decide⟩
theorem witness_FineEngineRefinesTick : readyPoint.Inv ∧ readyPoint.irq = true ∧
    after (engineMoves movesPerInvocation readyPoint) (fun t => t.cursor == 0 && t.phase == .idle) = true := by decide
theorem witness_TimerCountCommutesWithEngine : ({ readyPoint with phase := .compose } : State).phase ≠ .idle ∧
    ({ readyPoint with phase := .compose } : State).phase ≠ .rearm ∧
    (∃ t, engineMove { readyPoint with phase := .compose } = .next t) ∧
    (∃ u, exec .tclk { readyPoint with phase := .compose } = .next u) :=
  ⟨by decide, by decide, of_isNext (by decide), of_isNext (by decide)⟩
theorem witness_TransmissionWordClasses : readyPoint.Inv ∧ readyPoint.irq = true ∧ readyPoint.Canonical ∧
    readyPoint.TablesCurrent ∧ readyPoint.cfg.glyph[2]? = some [.a, .b, .d, .e, .g] ∧
    readyPoint.memRead .segrom 2 = some 0xFF24#16 ∧ readyPoint.memRead .selrom readyPoint.cursor = some 0x8000#16 ∧
    readyPoint.memRead .buf readyPoint.cursor = some (if true then 0xFF24#16 ||| readyPoint.dpbit else 0xFF24#16) ∧
    isNext (exec .tick readyPoint) = true := by decide
theorem witness_DisplayShowsOneDigit : 7 < readyPoint.cfg.n ∧ 0 < readyPoint.cfg.n ∧ (ready 0 0xFF24#16).Inv ∧
    (ready 0 0xFF24#16).irq = true ∧ (ready 0 0xFF24#16).Canonical ∧ (ready 0 0xFF24#16).TablesCurrent ∧
    (ready 0 0xFF24#16).cfg.glyph[2]? = some [.a, .b, .d, .e, .g] ∧
    (ready 0 0xFF24#16).memRead .segrom 2 = some 0xFF24#16 ∧
    (ready 0 0xFF24#16).memRead .buf (ready 0 0xFF24#16).cursor =
      some (if false then 0xFF24#16 ||| readyPoint.dpbit else 0xFF24#16) ∧
    isNext (exec .tick (ready 0 0xFF24#16)) = true ∧
    stopped.Inv ∧ stopped.Canonical ∧ stopped.segmask = orAll stopped.mem.selrom ∧
    stopped.memRead .selrom 7 = some 0x8000#16 := by decide
theorem witness_RawBufferWordEnablesMoreDigits : (ready 3 0#16).Inv ∧ (ready 3 0#16).irq = true ∧
    (ready 3 0#16).memRead .selrom (ready 3 0#16).cursor = some 0x0800#16 ∧
    (ready 3 0#16).memRead .buf (ready 3 0#16).cursor = some 0#16 ∧ 0x0800#16 &&& (ready 3 0#16).segmask = 0x0800#16 ∧
    isNext (exec .tick (ready 3 0#16)) = true ∧ (ready 3 0#16).Canonical ∧
    (ready 3 0#16).memRead .selrom 0 = some 0x0100#16 ∧ cfg.legal = true ∧ cfg.canonical = true ∧ 7 < cfg.n := by decide
theorem witness_CriticalSectionExcludesTicks :
    (timed true true true 3#8).mask = true ∧
    (∀ x ∈ ({ timed true true true 3#8 with inputs := [.tick, .tclk] } : State).inputs.take 2, decodeInput x ≠ .ok .ei) ∧
    ∃ t, steps 2 { timed true true true 3#8 with inputs := [.tick, .tclk] } = .next t :=
  ⟨rfl, by decide, of_isNext (by decide)⟩
theorem witness_OnlyTheOwnerWrites : ∃ t, exec (.wrbuf 7 0#16) stopped = .next t := of_isNext (by decide)
theorem witness_OnlyRdsegAndQrateRespond :
    decode 0x2F000000#32 = .ok (.rdseg 15) ∧ 15 < stopped.cfg.nglyph ∧
    (scheduled [.command 0x2F000000#32]).memRead .segrom 15 = some 0xFF0E#16 ∧
    (scheduled [.command 0x2F000000#32]).inputs = .command 0x2F000000#32 :: [] ∧
    isNext (step (scheduled [.command 0x2F000000#32])) = true ∧ decode 0x70000000#32 = .ok .qrate ∧
    isNext (step (scheduled [.command 0x70000000#32])) = true ∧ isNext (step (scheduled [.command 0#32])) = true := by decide
theorem witness_BufferHoldsTheLastWrite : (scheduled [.command 0x17000000#32, .command 0x1700FFFF#32]).Inv ∧
    7 < stopped.cfg.n ∧ isNext (steps 2 (scheduled [.command 0x17000000#32, .command 0x1700FFFF#32])) = true := by decide
theorem witness_TablesFrozenWhileRunning :
    ({ timed true false false 3#8 with inputs := [.command 0xA0000000#32, .tclk] } : State).run = true ∧
    (∀ x ∈ ({ timed true false false 3#8 with inputs := [.command 0xA0000000#32, .tclk] } : State).inputs.take 2,
      decodeInput x ≠ .ok .stop) ∧
    isNext (steps 2 { timed true false false 3#8 with inputs := [.command 0xA0000000#32, .tclk] }) = true := by decide
theorem witness_ConfigurationRefusedWhileRunning : (timed true false false 6#8).run = true := rfl
theorem witness_TickReadsOnlyTheCursorEntry : readyPoint.Inv ∧ readyPoint.irq = true ∧
    (List.replicate 8 0xFFA4#16)[readyPoint.cursor]? = readyPoint.mem.buf[readyPoint.cursor]? ∧
    isNext (exec .tick readyPoint) = true := by decide
theorem witness_ControlRegisterViews : stopped.cfg.legal = true ∧
    stopped.cfg.fClock / (stopped.cfg.prescaler * stopped.cfg.n * (256 - stopped.cfg.reload.toNat)) < 2 ^ 32 := by decide
theorem witness_RenderRefusals : (RenderCall.mk .first 1 none 1).refusal cfg = some .baseRange ∧
    (RenderCall.mk .first 1 none 17).refusal cfg = some .baseRange ∧
    (RenderCall.mk .first 65536 none 16).refusal cfg = some .negativeValue ∧
    (RenderCall.mk .first (-1) none 2).refusal cfg = some .negativeValue ∧
    (RenderCall.mk .second 65535 none 16).refusal { cfg with sel := cfg.sel.take 7 } = some .oddPanel ∧
    (RenderCall.mk .second 65535 none 16).refusal cfg = none ∧
    (RenderCall.mk .whole 0 none 2).refusal { cfg with sel := cfg.sel.take 7 } = none := by decide
theorem witness_RenderWritesTheDigits : stopped.Inv ∧ (RenderCall.mk .first 12345 (some 1) 10).refusal stopped.cfg = none ∧
    (RenderCall.mk .second 42 none 2).refusal stopped.cfg = none ∧
    (RenderCall.mk .whole 65535 (some 7) 16).refusal stopped.cfg = none := by decide
theorem witness_RenderIsItsOperations : stopped.Inv ∧ (RenderCall.mk .whole 0 (some 16) 16).refusal stopped.cfg = none := by
  decide
theorem witness_RenderTruncates : stopped.Inv ∧ (RenderCall.mk .first 12345 none 10).refusal stopped.cfg = none ∧
    RenderCall.mk .first 2345 none 10 = { RenderCall.mk .first 12345 none 10 with
      value := (((12345 : Int).toNat % 10 ^ (4 - 0) : Nat) : Int) } := by
  decide

/-- One position, and a render of it with a count and an offered `TICK` between its commands. -/
def onePosition : State := State.constructed { cfg with sel := [0x0100#16] } draw

theorem witness_RenderIsAtomicUnderEvents :
    onePosition.Inv ∧ (RenderCall.mk .whole 7 none 10).refusal onePosition.cfg = none ∧
    renderBody ⟨.whole, 7, none, 10⟩ onePosition = some [.rdseg 7, .wrbuf 0 0x0178#16] ∧
    [Input.tclk, encode (.rdseg 7), .tick, encode (.wrbuf 0 0x0178#16)].filter Input.isCommand =
      [Instr.rdseg 7, .wrbuf 0 0x0178#16].map encode := by decide
theorem witness_RenderRoundTrip : stopped.Inv ∧ stopped.Canonical ∧ stopped.TablesCurrent ∧
    (stopped.cfg.glyph.map (strokeBits stopped.stkpos)).Nodup ∧
    (RenderCall.mk .first 9999 (some 3) 10).refusal stopped.cfg = none ∧
    isNext (render ⟨.first, 9999, some 3, 10⟩ stopped) = true ∧
    (9999 : Int).toNat < 10 ^ (4 - 0) := by decide
theorem witness_PanelsAreIndependent : stopped.Inv ∧ (RenderCall.mk .first 1 none 10).refusal stopped.cfg = none ∧
    (RenderCall.mk .second 2 (some 4) 16).refusal stopped.cfg = none := by decide

/-- Two positions, armed with the shortest period, and two invocations with a `WRBUF` between them. -/
def twoPositions : State :=
  { State.constructed { cfg with sel := [0x0100#16, 0x0200#16], reload := 255#8 } { draw with buf := fun _ => 0x0324#16 } with
    run := true, tif := true, tcnt := 255#8, inputs := [.tick, .tclk, .command 0x10000378#32, .tick] }

theorem witness_LatchedWordsAreThoseOfTheTicks : twoPositions.Inv ∧ isNext (steps 4 twoPositions) = true ∧
    (ticking 4 twoPositions)[1]?.isSome = true := by decide +kernel

/-- The inputs of `twoPositions` decode to these. -/
theorem twoPositions_inputs : twoPositions.inputs.map decodeInput = [.ok .tick, .ok .tclk, .ok (.wrbuf 0 0x0378#16), .ok .tick] := by
  decide

theorem witness_EveryPositionIsShownOncePerCycle :
    twoPositions.Inv ∧ twoPositions.Canonical ∧ twoPositions.segmask = orAll twoPositions.mem.selrom ∧
    (∀ (p : Nat) (e : Word), twoPositions.memRead .buf p = some e → e &&& twoPositions.segmask = twoPositions.segmask) ∧
    (∀ x ∈ twoPositions.inputs.take 4, ∀ i, decodeInput x = .ok i →
      (∀ p m, i ≠ .cfgsel p m) ∧ (∀ sel b, i ≠ .cfgstk sel b) ∧
      ∀ p w, i = .wrbuf p w → w &&& twoPositions.segmask = twoPositions.segmask) ∧
    (ticking 4 twoPositions).length = twoPositions.cfg.n ∧ (∃ t, steps 4 twoPositions = .next t) ∧ 1 < twoPositions.cfg.n := by
  refine ⟨by decide, by decide, by decide, ?_, ?_, by decide +kernel, of_isNext (by decide +kernel), by decide⟩
  · intro p e h
    have hall : (twoPositions.mem.buf.all fun w => decide (w &&& twoPositions.segmask = twoPositions.segmask)) = true := by
      decide
    exact of_decide_eq_true (List.all_eq_true.mp hall e (List.mem_of_getElem? h))
  · intro x hx i hi
    have hm := List.mem_map_of_mem (f := decodeInput) (List.mem_of_mem_take hx)
    rw [twoPositions_inputs, hi] at hm
    have hseg : 0x0378#16 &&& twoPositions.segmask = twoPositions.segmask := by decide
    simp only [List.mem_cons, Except.ok.injEq, List.not_mem_nil, or_false] at hm
    rcases hm with rfl | rfl | rfl | rfl
    · exact ⟨by simp, by simp, by simp⟩
    · exact ⟨by simp, by simp, by simp⟩
    · refine ⟨by simp, by simp, fun p w h => ?_⟩
      cases h
      exact hseg
    · exact ⟨by simp, by simp, by simp⟩

end Sys2Proof.Tests
end

section
/-! Construction (10_state.md R46, R270): what a legal configuration gives, and that any unspecified value is some draw's. -/

namespace Sys2Proof.Machine

/-! ## The reset wiring -/

/-- The seven strokes come before the decimal point in the wiring (R104, R123). -/
theorem strokeIndex_lt_seven (x : Stroke) : x.index.val < 7 := by cases x <;> decide

/-- The stroke positions at construction are the configuration's. -/
theorem strokePos_wiring (c : Config) (x : Stroke) :
    strokePos c.wiring x = (c.stk.toList)[x.index.val]?.getD 0#4 := by
  have hx : x.index.val < c.stk.toList.length := by simpa using strokeIndex_lt_seven x
  rw [List.getElem?_eq_getElem hx]
  exact Vector.getElem_push_lt (strokeIndex_lt_seven x)

/-- `STKPOS[7]` at construction is `DPPOS`. -/
@[simp] theorem pointPos_wiring (c : Config) : pointPos c.wiring = c.dppos := by
  simp [pointPos, Config.wiring]

/-! ## `BUILD` on current tables -/

@[simp] theorem Memory.withSpace_space (m : Memory) (sp : Space) : m.withSpace sp (m.space sp) = m := by
  cases sp <;> rfl

/-- All that `BUILD` does while stopped (R124). -/
theorem exec_build_of_stopped {s : State} (hrun : s.run = false) :
    exec .build s = .next { s with
      segmask := orAll s.mem.selrom
      dpbit := bitMask (pointPos s.stkpos)
      mem := s.mem.withSpace .segrom (segmentTable s.stkpos (orAll s.mem.selrom) s.cfg.glyph) } := by
  simp [exec, execBuild, hrun]

/-- `BUILD` derives nothing new from tables that are already current (R124, R127). -/
theorem exec_build_of_tablesCurrent {s : State} (hrun : s.run = false) (hcur : s.TablesCurrent) :
    exec .build s = .next s := by
  obtain ⟨hmask, hpoint, htable⟩ := hcur
  have hmem : s.mem.withSpace .segrom s.mem.segrom = s.mem := Memory.withSpace_space s.mem .segrom
  rw [exec_build_of_stopped hrun, ← hmask, ← hpoint, ← htable, hmem]

/-! ## Construction -/

/-- Construction derives the tables as `BUILD` does (R46). -/
theorem constructed_tablesCurrent (c : Config) (d : ResetDraw) : (State.constructed c d).TablesCurrent :=
  ⟨rfl, rfl, rfl⟩

/-- `BUILD` right after construction changes nothing (R46). -/
theorem exec_build_constructed (c : Config) (d : ResetDraw) :
    exec .build (State.constructed c d) = .next (State.constructed c d) :=
  exec_build_of_tablesCurrent rfl (constructed_tablesCurrent c d)

/-- A legal configuration commits neither of the construction-time violations of R241. -/
theorem construct_of_legal {c : Config} (hc : c.legal = true) (d : ResetDraw) :
    State.construct c d = .next (State.constructed c d) := by
  simp only [Config.legal, Bool.and_eq_true, decide_eq_true_eq] at hc
  obtain ⟨⟨⟨⟨⟨⟨⟨hpos, -⟩, -⟩, -⟩, -⟩, -⟩, -⟩, hpins⟩ := hc
  have hn : c.n ≠ 0 := by omega
  simp [State.construct, hn, hpins]

/-! ## Every unspecified value is some draw's -/

/-- The draw whose buffer entries are those of a list; the entries past its end are read by no construction of that length. -/
def ResetDraw.ofBuffer (ws : List Word) (word sr q : Word) : ResetDraw where
  buf := fun p => ws.getD p 0#16
  word := word
  sr := sr
  q := q

/-- Construction with the draw of a list of length `N` puts the list in the buffer. -/
theorem constructed_ofBuffer_buf {c : Config} {ws : List Word} (hlen : ws.length = c.n) (word sr q : Word) :
    (State.constructed c (.ofBuffer ws word sr q)).mem.buf = ws := by
  apply List.ext_getElem
  · simp [State.constructed, hlen]
  · intro p _ hp
    simp [State.constructed, ResetDraw.ofBuffer, hp]

end Sys2Proof.Machine

namespace Sys2Proof.Proofs

open Sys2Proof.Machine

/-- Settles O13: for a legal configuration construction answers `State.constructed`, whose tables are current, so that
`BUILD` keeps them; the unspecified values are those of `ResetDraw.ofBuffer`. -/
theorem constructionGivesTheResetValues : Obligations.ConstructionGivesTheResetValues := by
  intro c hc
  constructor
  · intro d
    refine ⟨State.constructed c d, construct_of_legal hc d, rfl, rfl, strokePos_wiring c, pointPos_wiring c,
      exec_build_constructed c d, ?_⟩
    simp [State.constructed]
  · intro ws word sr q hlen
    exact ⟨.ofBuffer ws word sr q, _, construct_of_legal hc _, constructed_ofBuffer_buf hlen word sr q, rfl, rfl, rfl⟩

end Sys2Proof.Proofs
end

section
/-! Index ranges (20_memory.md R61): which indices the operations accept, and that a `TICK` never meets an index outside
its space. -/

namespace Sys2Proof.Machine

/-! ## Elements of a memory in canonical form (R37 b, c; R61) -/

/-- The number of entries that a configuration gives an address space (R60). -/
def Space.size (c : Config) : Space → Nat
  | .selrom => c.n
  | .segrom => c.nglyph
  | .buf => c.n

theorem Memory.wf_iff (m : Memory) (c : Config) : m.wf c = true ↔ ∀ sp, (m.space sp).length = sp.size c := by
  simp only [Memory.wf, Bool.and_eq_true, decide_eq_true_eq]
  constructor
  · rintro ⟨⟨hsel, hseg⟩, hbuf⟩ sp
    cases sp
    · exact hsel
    · exact hseg
    · exact hbuf
  · exact fun h => ⟨⟨h .selrom, h .segrom⟩, h .buf⟩

/-- A read inside its space returns a word. -/
theorem State.memRead_of_lt {s : State} (hwf : s.mem.wf s.cfg = true) {sp : Space} {i : Nat} (hi : i < sp.size s.cfg) :
    ∃ v, s.memRead sp i = some v := by
  rw [← (Memory.wf_iff s.mem s.cfg).1 hwf sp] at hi
  exact ⟨_, List.getElem?_eq_getElem hi⟩

/-- A write inside its space stores the word. -/
theorem State.memWrite_of_lt {s : State} (hwf : s.mem.wf s.cfg = true) {sp : Space} {i : Nat} (hi : i < sp.size s.cfg)
    (v : Word) : s.memWrite sp i v = .next (s.storeElement sp i v) := by
  rw [← (Memory.wf_iff s.mem s.cfg).1 hwf sp] at hi
  exact State.memWrite_next.2 ⟨hi, rfl⟩

/-! ## `WRBUF` (R150) -/

theorem exec_wrbuf_of_lt {s : State} (hwf : s.mem.wf s.cfg = true) {p : Nat} (hp : p < s.cfg.n) (w : Word) :
    exec (.wrbuf p w) s = .next (s.storeElement .buf p w) := by
  have hwrite : s.memWrite .buf p w = .next (s.storeElement .buf p w) := State.memWrite_of_lt hwf hp w
  simp [exec, execWrbuf, positionInRange, hp, hwrite]

theorem exec_wrbuf_of_le {s : State} {p : Nat} (hp : s.cfg.n ≤ p) (w : Word) :
    exec (.wrbuf p w) s = .refused .indexRange := by
  simp [exec, execWrbuf, positionInRange, Nat.not_lt.2 hp]

/-! ## `RDSEG` (R125) -/

theorem exec_rdseg_of_memRead {s : State} {d : Nat} {e : Word} (hd : d < s.cfg.nglyph)
    (he : s.memRead .segrom d = some e) : exec (.rdseg d) s = .next (s.respond (zeroExtended e)) := by
  simp [exec, execRdseg, digitInRange, hd, he]

theorem exec_rdseg_of_le {s : State} {d : Nat} (hd : s.cfg.nglyph ≤ d) : exec (.rdseg d) s = .refused .indexRange := by
  simp [exec, execRdseg, digitInRange, Nat.not_lt.2 hd]

/-! ## `CFGSEL` and `CFGSTK` while stopped (R122, R123) -/

theorem exec_cfgsel_of_le {s : State} (hrun : s.run = false) {p : Nat} (hp : s.cfg.n ≤ p) (m : Word) :
    exec (.cfgsel p m) s = .refused .indexRange := by
  simp [exec, execCfgsel, positionInRange, hrun, Nat.not_lt.2 hp]

theorem exec_cfgstk_of_le {s : State} (hrun : s.run = false) {sel : Nat} (hsel : 8 ≤ sel) (k : Nat) :
    exec (.cfgstk sel k) s = .refused .indexRange := by
  simp [exec, execCfgstk, selectorInRange, hrun, Nat.not_lt.2 hsel]

/-! ## `TICK` (R180) -/

/-- Without its start condition no `TICK` occurs (R180). -/
theorem exec_tick_of_not_irq {s : State} (hirq : s.irq = false) : exec .tick s = .next s := by
  simp [exec, execTick, hirq]

theorem exec_tick_of_irq {s : State} (hirq : s.irq = true) : exec .tick s = invocation s := by
  simp [exec, execTick, hirq]

/-- With the cursor at a position, both reads of step 3 succeed, so that the invocation completes (R61, R183). -/
theorem invocation_of_shaped {s : State} (h : s.Shaped) : ∃ t, invocation s = .next t := by
  obtain ⟨-, hwf, hcursor⟩ := h
  obtain ⟨m, hm⟩ : ∃ m, s.memRead .selrom s.cursor = some m := State.memRead_of_lt hwf hcursor
  obtain ⟨e, he⟩ : ∃ e, s.memRead .buf s.cursor = some e := State.memRead_of_lt hwf hcursor
  obtain ⟨u, hu⟩ : ∃ u, stepCompose (stepLatchLow (stepRearm s.takeInterrupt)) = some u :=
    ⟨_, stepCompose_some.2 ⟨m, e, hm, he, rfl⟩⟩
  exact ⟨_, invocation_next.2 ⟨u, hu, rfl⟩⟩

/-- A `TICK` offered in a shaped state never meets an index outside its space (R61). -/
theorem exec_tick_of_shaped {s : State} (h : s.Shaped) : ∃ t, exec .tick s = .next t := by
  cases hirq : s.irq with
  | false => exact ⟨s, exec_tick_of_not_irq hirq⟩
  | true => exact exec_tick_of_irq hirq ▸ invocation_of_shaped h

/-! ## Accepted exactly in range -/

/-- What answers below a bound and is refused from it on answers exactly below it. -/
theorem next_iff_lt {o : Answer State} {r : Refusal} {i bound : Nat} (hlt : i < bound → ∃ t, o = .next t)
    (hle : bound ≤ i → o = .refused r) : (∃ t, o = .next t) ↔ i < bound := by
  refine ⟨fun ⟨t, ht⟩ => ?_, hlt⟩
  by_contra hi
  cases ht.symm.trans (hle (Nat.not_lt.1 hi))

theorem exec_wrbuf_next_iff {s : State} (hwf : s.mem.wf s.cfg = true) (p : Nat) (w : Word) :
    (∃ t, exec (.wrbuf p w) s = .next t) ↔ p < s.cfg.n :=
  next_iff_lt (fun hp => ⟨_, exec_wrbuf_of_lt hwf hp w⟩) (fun hp => exec_wrbuf_of_le hp w)

theorem exec_rdseg_next_iff {s : State} (hwf : s.mem.wf s.cfg = true) (d : Nat) :
    (∃ t, exec (.rdseg d) s = .next t) ↔ d < s.cfg.nglyph := by
  refine next_iff_lt (fun hd => ?_) exec_rdseg_of_le
  obtain ⟨e, he⟩ : ∃ e, s.memRead .segrom d = some e := State.memRead_of_lt hwf hd
  exact ⟨_, exec_rdseg_of_memRead hd he⟩

end Sys2Proof.Machine

namespace Sys2Proof.Proofs

open Sys2Proof.Machine

/-- Settles O21: in a shaped state the spaces have their configured lengths, so that every access behind a range check
succeeds, and the cursor, a position, is in range for both reads of a `TICK`. -/
theorem indexOutOfRangeIsRefused : Obligations.IndexOutOfRangeIsRefused := by
  intro s ⟨hshaped, _⟩
  have ⟨_, hwf, _⟩ := hshaped
  exact ⟨exec_wrbuf_next_iff hwf, fun p w hp => exec_wrbuf_of_le hp w, exec_rdseg_next_iff hwf,
    fun d hd => exec_rdseg_of_le hd, fun hrun p m hp => exec_cfgsel_of_le hrun hp m,
    fun hrun sel k hsel => exec_cfgstk_of_le hrun hsel k, exec_tick_of_shaped hshaped⟩

end Sys2Proof.Proofs
end

section
/-! The encoding tables (40_encoding_tables.md R122 to R125): what `RDSEG`, `CFGSEL`, `CFGSTK` and `BUILD` do and leave
unchanged. -/

namespace Sys2Proof.Machine

/-! ## Refused while running (R128) -/

theorem exec_cfgsel_of_run {s : State} (hrun : s.run = true) (p : Nat) (m : Word) :
    exec (.cfgsel p m) s = .refused .configWhileRunning := by
  simp [exec, execCfgsel, hrun]

theorem exec_cfgstk_of_run {s : State} (hrun : s.run = true) (sel k : Nat) :
    exec (.cfgstk sel k) s = .refused .configWhileRunning := by
  simp [exec, execCfgstk, hrun]

theorem exec_build_of_run {s : State} (hrun : s.run = true) : exec .build s = .refused .configWhileRunning := by
  simp [exec, execBuild, hrun]

/-! ## Stroke bits (R90, R124) -/

/-- A bit of `ORALL` is set when some word of the family has it. -/
theorem getLsbD_orAll (ws : List Word) (i : Nat) : (orAll ws).getLsbD i = true ↔ ∃ w ∈ ws, w.getLsbD i = true := by
  induction ws with
  | nil => simp [orAll]
  | cons w ws ih => simp [orAll, ih]

theorem getLsbD_strokeBits (stkpos : Vector (BitVec 4) 8) (g : List Stroke) (i : Nat) :
    (strokeBits stkpos g).getLsbD i = true ↔ ∃ x ∈ g, (bitMask (strokePos stkpos x)).getLsbD i = true := by
  simp [strokeBits, getLsbD_orAll]

theorem stroke_mem_all (x : Stroke) : x ∈ Stroke.all := by cases x <;> decide

/-- The bits of any strokes lie in `STROKE_ALL`. -/
theorem getLsbD_strokeAll_of_strokeBits {stkpos : Vector (BitVec 4) 8} {g : List Stroke} {i : Nat}
    (h : (strokeBits stkpos g).getLsbD i = true) : (strokeAll stkpos).getLsbD i = true := by
  obtain ⟨x, _, hx⟩ := (getLsbD_strokeBits stkpos g i).1 h
  exact (getLsbD_strokeBits stkpos Stroke.all i).2 ⟨x, stroke_mem_all x, hx⟩

/-- Where no stroke bit is a select bit, the strokes that a pattern drives low are those of its glyph (R124 b). -/
theorem not_segmentPattern_and_strokeAll {stkpos : Vector (BitVec 4) 8} {segmask : Word} (g : List Stroke)
    (hdisjoint : strokeAll stkpos &&& segmask = 0#16) :
    ~~~(segmentPattern stkpos segmask g) &&& strokeAll stkpos = strokeBits stkpos g := by
  apply BitVec.eq_of_getLsbD_eq
  intro i hi
  have hselect : ((strokeAll stkpos).getLsbD i && segmask.getLsbD i) = false := by
    rw [← BitVec.getLsbD_and, hdisjoint, BitVec.getLsbD_zero]
  simp only [segmentPattern, BitVec.getLsbD_and, BitVec.getLsbD_not, BitVec.getLsbD_or, hi, decide_true, Bool.true_and]
  have hlit := @getLsbD_strokeAll_of_strokeBits stkpos g i
  cases hstroke : (strokeAll stkpos).getLsbD i with
  | false =>
    have hunlit : (strokeBits stkpos g).getLsbD i = false := by simpa [hstroke] using hlit
    simp [hunlit]
  | true =>
    have hmask : segmask.getLsbD i = false := by simpa [hstroke] using hselect
    simp [hmask]

/-! ## The table of `BUILD` (R124) -/

theorem segmentTable_getElem? {stkpos : Vector (BitVec 4) 8} {segmask : Word} {glyphs : List (List Stroke)} {d : Nat}
    {g : List Stroke} (hg : glyphs[d]? = some g) :
    (segmentTable stkpos segmask glyphs)[d]? = some (segmentPattern stkpos segmask g) := by
  simp [segmentTable, hg]

/-! ## `RDSEG` and `CFGSEL` in range (R125, R122) -/

/-- The response to `RDSEG` is the stored entry under sixteen zero bits (R106). -/
theorem zeroExtended_eq_append (w : Word) : zeroExtended w = 0#16 ++ w := by
  simp [zeroExtended, BitVec.setWidth_eq_append]

theorem exec_cfgsel_of_lt {s : State} (hwf : s.mem.wf s.cfg = true) (hrun : s.run = false) {p : Nat} (hp : p < s.cfg.n)
    (m : Word) : exec (.cfgsel p m) s = .next (s.storeElement .selrom p m) := by
  have hwrite : s.memWrite .selrom p m = .next (s.storeElement .selrom p m) := State.memWrite_of_lt hwf hp m
  simp [exec, execCfgsel, positionInRange, hrun, hp, hwrite]

/-! ## `CFGSTK` in range (R123) -/

theorem bitPosition_toNat {k : Nat} (hk : k < 16) : (bitPosition k).toNat = k := by
  simp [bitPosition, Nat.mod_eq_of_lt hk]

theorem exec_cfgstk_of_lt {s : State} (hrun : s.run = false) {sel : Nat} (hsel : sel < 8) (k : Nat) :
    exec (.cfgstk sel k) s = .next { s with stkpos := s.stkpos.setIfInBounds sel (bitPosition k) } := by
  simp [exec, execCfgstk, selectorInRange, hrun, hsel]

end Sys2Proof.Machine

namespace Sys2Proof.Proofs

open Sys2Proof.Machine

/-- Settles O19: `BUILD` replaces the table by that of the current masks and positions; property (b) holds because the
strokes of a glyph are among all strokes. -/
theorem buildDerivesTheTables : Obligations.BuildDerivesTheTables := by
  intro s
  refine ⟨exec_build_of_run, fun hrun => ⟨_, exec_build_of_stopped hrun, rfl, rfl, rfl, ?_, ?_, fun j => ⟨rfl, rfl⟩⟩⟩
  · exact segmentTable_length s.stkpos (orAll s.mem.selrom) s.cfg.glyph
  · intro d g hg
    exact ⟨_, segmentTable_getElem? hg, rfl, not_segmentPattern_and_strokeAll g⟩

/-- Settles O16: below `NGLYPH` the read succeeds in a shaped state, and its word is the response. -/
theorem rdsegReturnsTheStoredEntry : Obligations.RdsegReturnsTheStoredEntry := by
  intro s d ⟨_, hwf, _⟩
  refine ⟨exec_rdseg_of_le, fun hd => ?_⟩
  obtain ⟨e, he⟩ : ∃ e, s.memRead .segrom d = some e := State.memRead_of_lt hwf hd
  refine ⟨e, he, ?_⟩
  rw [exec_rdseg_of_memRead hd he, zeroExtended_eq_append]
  rfl

/-- Settles O17: while stopped and in range `CFGSEL` is one element write. -/
theorem cfgselSetsOneMask : Obligations.CfgselSetsOneMask := by
  intro s p m ⟨_, hwf, _⟩
  refine ⟨fun hrun => exec_cfgsel_of_run hrun p m, fun hrun hp => exec_cfgsel_of_le hrun hp m, fun hrun hp => ?_⟩
  have hlen : p < (s.mem.space .selrom).length := by rwa [(Memory.wf_iff s.mem s.cfg).1 hwf .selrom]
  exact ⟨_, exec_cfgsel_of_lt hwf hrun hp m, rfl, s.memRead_storeElement_same .selrom p m hlen,
    fun sp j => s.memRead_storeElement_other .selrom sp p j m⟩

/-- Settles O18: while stopped and below 8 `CFGSTK` sets one element of `STKPOS`. -/
theorem cfgstkSetsOnePosition : Obligations.CfgstkSetsOnePosition := by
  intro s sel k hk
  refine ⟨fun hrun => exec_cfgstk_of_run hrun sel k, fun hrun hsel => exec_cfgstk_of_le hrun hsel k, fun hrun hsel => ?_⟩
  refine ⟨_, exec_cfgstk_of_lt hrun hsel k, rfl, fun j => ⟨?_, ?_⟩⟩
  · rintro rfl
    simp [bitPosition_toNat hk]
  · intro hj
    exact Vector.getElem_setIfInBounds_ne j.isLt (Ne.symm hj)

end Sys2Proof.Proofs
end

section
/-! The value formatter (41_buffer_formatter.md R151 to R159): a panel keeps the low digits of a value and no others, so
that a value too long for it renders as its remainder does. -/

namespace Sys2Proof.Machine

/-! ## The panels (R151) -/

theorem Panel.lo_eq (c : Config) (p : Panel) : p.lo c = if p = .second then c.n / 2 else 0 := by cases p <;> rfl

theorem Panel.hi_eq (c : Config) (p : Panel) : p.hi c = if p = .first then c.n / 2 else c.n := by cases p <;> rfl

/-! ## An accepted render (R152, R160, R161) -/

/-- A render is accepted when its base, its value and its panel all are (R151, R160, R161). -/
theorem RenderCall.accepted_iff (r : RenderCall) (c : Config) :
    r.refusal c = none ↔ (2 ≤ r.base ∧ r.base ≤ 16 ∧ r.base ≤ c.nglyph) ∧
      (0 ≤ r.value ∧ r.value < (2 : Int) ^ c.valw) ∧ ¬(r.panel.isHalf = true ∧ c.n % 2 = 1) := by
  unfold RenderCall.refusal
  split_ifs with hbase hvalue hhalf
  · exact iff_of_false nofun fun ⟨hb, _, _⟩ => by omega
  · exact iff_of_false nofun fun ⟨_, hv, _⟩ => by omega
  · exact iff_of_false nofun fun ⟨_, _, hp⟩ => hp hhalf
  · exact iff_of_true rfl ⟨by omega, by omega, hhalf⟩

/-- The base and the panel are accepted whatever the value, so that with one value every smaller natural number is accepted. -/
theorem RenderCall.accepted_of_value_le {r : RenderCall} {c : Config} (h : r.refusal c = none) {v : Int} (hpos : 0 ≤ v)
    (hle : v ≤ r.value) : ({ r with value := v } : RenderCall).refusal c = none := by
  obtain ⟨hbase, ⟨_, hlt⟩, hhalf⟩ := (r.accepted_iff c).1 h
  exact (RenderCall.accepted_iff _ c).2 ⟨hbase, ⟨hpos, hle.trans_lt hlt⟩, hhalf⟩

/-- An accepted render is its `DI`, its loop and its `EI` (R152). -/
theorem render_of_accepted {r : RenderCall} {s : State} (h : r.refusal s.cfg = none) :
    render r s = andThen (issue .di s) fun s1 =>
      andThen (renderLoop (r.panel.lo s.cfg) r.dp r.base (r.width s.cfg) r.value.toNat s1) fun s2 => issue .ei s2 := by
  simp [render, h]

/-! ## Truncation (R159) -/

/-- `count` passes of the loop look up the low `count` digits of the value and no other. -/
theorem renderLoop_mod_pow (lo : Nat) (dp : Option Nat) (base count t : Nat) (s : State) :
    renderLoop lo dp base count (t % base ^ count) s = renderLoop lo dp base count t s := by
  induction count generalizing t s with
  | zero => rfl
  | succ k ih =>
    have hdigit : t % base ^ (k + 1) % base = t % base := by rw [pow_succ', Nat.mod_mul_right_mod]
    have hrest : t % base ^ (k + 1) / base = t / base % base ^ k := by rw [pow_succ', Nat.mod_mul_right_div_self]
    simp only [renderLoop, hdigit, hrest, ih]

end Sys2Proof.Machine

namespace Sys2Proof.Proofs

open Sys2Proof.Machine

/-- Settles O15: in range `WRBUF` is one element write into the buffer. -/
theorem wrbufWritesOneEntry : Obligations.WrbufWritesOneEntry := by
  intro s p w ⟨_, hwf, _⟩
  refine ⟨fun hp => exec_wrbuf_of_le hp w, fun hp => ?_⟩
  have hlen : p < (s.mem.space .buf).length := by rwa [(Memory.wf_iff s.mem s.cfg).1 hwf .buf]
  exact ⟨_, exec_wrbuf_of_lt hwf hp w, rfl, s.memRead_storeElement_same .buf p w hlen,
    fun sp j => s.memRead_storeElement_other .buf sp p j w⟩

/-- Settles O54: the remainder is accepted, being no larger than the value, and its loop, as long as the panel is wide,
looks up the same digits. -/
theorem renderTruncates : Obligations.RenderTruncates := by
  rintro r _ s lo hi - hr hlo hhi rfl
  have hwidth : r.width s.cfg = hi - lo := by rw [RenderCall.width, Panel.lo_eq, Panel.hi_eq, hlo, hhi]
  obtain ⟨_, ⟨hpos, _⟩, _⟩ := (r.accepted_iff s.cfg).1 hr
  have hle : ((r.value.toNat % r.base ^ (hi - lo) : Nat) : Int) ≤ r.value := by
    have hmod := Nat.mod_le r.value.toNat (r.base ^ (hi - lo))
    omega
  have hr' := RenderCall.accepted_of_value_le hr (Int.natCast_nonneg _) hle
  refine ⟨hr', ?_⟩
  rw [render_of_accepted hr, render_of_accepted hr']
  simp only [RenderCall.width, Int.toNat_natCast, ← hwidth, renderLoop_mod_pow]

end Sys2Proof.Proofs
end

section
/-! The chain (42_scan_refresh.md R184, R185, R188, R189): what a line event does to the shift stages and to the output
latches, and what the transfers of a word leave in them. -/

namespace Sys2Proof.Machine

/-! ## One line event (R188, R189) -/

/-- What any line event makes of the shift stages: they shift on a rising edge of `SCLK` (R188). -/
theorem Wires.drive_sr (w : Wires) (e : LineEvent) :
    (w.drive e).sr = if e = ⟨.sclk, true⟩ ∧ w.sclk = false then w.shifted else w.sr := by
  obtain ⟨line, level⟩ := e
  cases line with
  | data => simp [Wires.drive]
  | sclk => simp [Wires.drive, and_comm]
  | latch => simp [Wires.drive]

/-- What any line event makes of the output latches: they copy the stages on a rising edge of `LATCH` (R189). -/
theorem Wires.drive_q (w : Wires) (e : LineEvent) :
    (w.drive e).q = if e = ⟨.latch, true⟩ ∧ w.latch = false then w.sr else w.q := by
  obtain ⟨line, level⟩ := e
  cases line with
  | data => simp [Wires.drive]
  | sclk => simp [Wires.drive]
  | latch => simp [Wires.drive, and_comm]

/-- The shift as arithmetic: the value doubles, its top bit is lost and `DATA` becomes the lowest bit (R188). -/
theorem Wires.shifted_toNat (w : Wires) : w.shifted.toNat = w.sr.toNat * 2 % 65536 + w.data.toNat := by
  simp only [Wires.shifted, BitVec.toNat_concat, BitVec.extractLsb'_toNat, Nat.shiftRight_zero]
  omega

/-- The shift bit by bit: `DATA` enters at stage 0 and every other stage takes the one before it (R188). -/
theorem Wires.getLsbD_shifted (w : Wires) {i : Nat} (hi : i < 16) :
    w.shifted.getLsbD i = if i = 0 then w.data else w.sr.getLsbD (i - 1) := by
  have hlast : i - 1 < 15 := by omega
  simp [Wires.shifted, BitVec.getLsbD_concat, hlast]

/-! ## The sixteen transfers of a word (R184, R185) -/

/-- Events on other lines leave the output latches alone (R189). -/
theorem Wires.replay_q_of_no_latch (w : Wires) {es : List LineEvent} (h : ∀ e ∈ es, e.line ≠ .latch) :
    (w.replay es).q = w.q := by
  induction es generalizing w with
  | nil => rfl
  | cons e es ih =>
    have hline : e.line ≠ .latch := h e List.mem_cons_self
    have hedge : ¬(e = ⟨.latch, true⟩ ∧ w.latch = false) := fun ⟨he, _⟩ => hline (he ▸ rfl)
    rw [Wires.replay_cons, ih _ fun x hx => h x (List.mem_cons_of_mem e hx), Wires.drive_q, if_neg hedge]

/-- One transfer from `SCLK = 0`: the bit stands on `DATA` and has been shifted in, and `SCLK` is 0 again (R185). -/
theorem Wires.drive_transfer {w : Wires} (hsclk : w.sclk = false) (b : Bool) :
    ((w.drive ⟨.data, b⟩).drive ⟨.sclk, true⟩).drive ⟨.sclk, false⟩ =
      { w with data := b, sr := ({ w with data := b } : Wires).shifted } := by
  simp [Wires.drive, hsclk]

/-- After `k` transfers the lowest `k` stages hold the lowest `k` bits of the word, and what stood in the chain has moved
up by `k` (R184, R188). -/
theorem Wires.getLsbD_replay_bitTrace {w : Wires} (hsclk : w.sclk = false) (word : Word) (k : Nat) {i : Nat} (hi : i < 16) :
    (w.replay (bitTrace word k)).sr.getLsbD i = if i < k then word.getLsbD i else w.sr.getLsbD (i - k) := by
  induction k generalizing w with
  | zero => simp [bitTrace]
  | succ k ih =>
    have hstage : i - k < 16 := by omega
    rw [bitTrace, Wires.replay_cons, Wires.replay_cons, Wires.replay_cons, Wires.drive_transfer hsclk, ih (by exact hsclk),
      Wires.getLsbD_shifted _ hstage]
    obtain hlt | rfl | hgt := lt_trichotomy i k
    · simp [hlt, Nat.lt_succ_of_lt hlt]
    · simp
    · have hne : i - k ≠ 0 := by omega
      simp [hne, Nat.not_lt.2 hgt.le, Nat.not_lt.2 (Nat.succ_le_of_lt hgt), Nat.sub_sub]

/-- The transfers of a word use the lines `DATA` and `SCLK` only (R185). -/
theorem bitTrace_line_ne_latch (word : Word) (k : Nat) : ∀ e ∈ bitTrace word k, e.line ≠ .latch := by
  induction k with
  | zero => simp [bitTrace]
  | succ k ih => simpa [bitTrace] using ih

end Sys2Proof.Machine

namespace Sys2Proof.Proofs

open Sys2Proof.Machine

/-- Settles O34: `Wires.drive_sr` says what each event does to the stages; sixteen transfers replace all sixteen bits and
touch no latch. -/
theorem chainShiftsOnRisingShiftClock : Obligations.ChainShiftsOnRisingShiftClock := by
  refine ⟨fun w hsclk => ?_, fun w e hedge => ?_, fun w word hsclk => ⟨?_, ?_⟩⟩
  · rw [Wires.drive_sr, if_pos ⟨rfl, hsclk⟩]
    exact ⟨w.shifted_toNat, rfl⟩
  · rw [Wires.drive_sr, if_neg hedge]
  · refine BitVec.eq_of_getLsbD_eq fun i hi => ?_
    rw [Wires.getLsbD_replay_bitTrace hsclk word 16 hi, if_pos hi]
  · exact w.replay_q_of_no_latch (bitTrace_line_ne_latch word 16)

/-- Settles O35: `Wires.drive_q` says what each event does to the latches, and events on other lines are no edge of
`LATCH`. -/
theorem chainLatchesOnRisingLatchClock : Obligations.ChainLatchesOnRisingLatchClock := by
  refine ⟨fun w hlatch => ?_, fun w e hedge => ?_, fun w es hes => w.replay_q_of_no_latch hes⟩
  · rw [Wires.drive_q, if_pos ⟨rfl, hlatch⟩]
  · rw [Wires.drive_q, if_neg hedge]

end Sys2Proof.Proofs
end

section
/-! The scan engine (42_scan_refresh.md R180, R187, R191, R192): what a `TICK` adds to the line trace, and that the cursor
moves with the trace, by one position for each `TICK` and for nothing else. -/

namespace Sys2Proof.Machine

/-! ## The line trace of a `TICK` (R191) -/

@[simp] theorem bitTrace_length (word : Word) (k : Nat) : (bitTrace word k).length = 3 * k := by
  induction k with
  | zero => rfl
  | succ k ih => simp [bitTrace, ih]; omega

@[simp] theorem tickTrace_length (word : Word) : (tickTrace word).length = 51 := by simp [tickTrace]

theorem stepShift_trace (k : Nat) (s : State) : (stepShift k s).trace = s.trace ++ bitTrace s.word k := by
  induction k generalizing s with
  | zero => simp [stepShift, bitTrace]
  | succ k ih => simp [stepShift, bitTrace, ih]

@[simp] theorem stepShift_cfg (k : Nat) (s : State) : (stepShift k s).cfg = s.cfg := by
  obtain ⟨_, _, _, _, hframe⟩ := stepShift_frame k s
  rw [hframe]

@[simp] theorem stepShift_cursor (k : Nat) (s : State) : (stepShift k s).cursor = s.cursor := by
  obtain ⟨_, _, _, _, hframe⟩ := stepShift_frame k s
  rw [hframe]

@[simp] theorem stepShift_word (k : Nat) (s : State) : (stepShift k s).word = s.word := by
  obtain ⟨_, _, _, _, hframe⟩ := stepShift_frame k s
  rw [hframe]

/-! ## What moves the cursor (R192) -/

/-- The scan stands where it stood: configuration, cursor and line trace are unchanged. -/
structure State.ScanRests (s t : State) : Prop where
  cfg_eq : t.cfg = s.cfg
  cursor_eq : t.cursor = s.cursor
  trace_eq : t.trace = s.trace

/-- The scan has refreshed one position: the cursor is one further and the trace of its word is added (R187, R191). -/
structure State.ScanAdvances (s t : State) : Prop where
  cfg_eq : t.cfg = s.cfg
  cursor_eq : t.cursor = (s.cursor + 1) % s.cfg.n
  trace_eq : t.trace = s.trace ++ tickTrace t.word

/-- An invocation refreshes one position (R180). -/
theorem invocation_scanAdvances {s t : State} (h : invocation s = .next t) : s.ScanAdvances t := by
  obtain ⟨u, hu, rfl⟩ := invocation_next.1 h
  obtain ⟨m, e, _, _, rfl⟩ := stepCompose_some.1 hu
  exact ⟨by simp, by simp, by simp [stepShift_trace, tickTrace]⟩

theorem exec_tick_scan {s t : State} (h : exec .tick s = .next t) : s.ScanRests t ∨ s.ScanAdvances t := by
  cases hirq : s.irq with
  | false =>
    cases (exec_tick_of_not_irq hirq).symm.trans h
    exact .inl ⟨rfl, rfl, rfl⟩
  | true => exact .inr (invocation_scanAdvances ((exec_tick_of_irq hirq).symm.trans h))

/-- A completed memory write leaves the scan where it stands. -/
theorem State.memWrite_scanRests {s t : State} {sp : Space} {i : Nat} {v : Word} (h : s.memWrite sp i v = .next t) :
    s.ScanRests t := by
  obtain ⟨_, rfl⟩ := State.memWrite_next.1 h
  exact ⟨rfl, rfl, rfl⟩

/-- No operation but `TICK` moves the cursor or emits: `START` and `STOP` do not reset the scan (R192). -/
theorem exec_scanRests {i : Instr} (hi : i ≠ .tick) {s t : State} (h : exec i s = .next t) : s.ScanRests t := by
  cases i with
  | tick => exact absurd rfl hi
  | di | ei | stop | qrate => cases h; exact ⟨rfl, rfl, rfl⟩
  | start =>
    simp only [exec, execStart] at h
    split at h <;> cases h
    exact ⟨rfl, rfl, rfl⟩
  | tclk =>
    simp only [exec, execTclk] at h
    split at h <;> cases h <;> exact ⟨rfl, rfl, rfl⟩
  | build =>
    simp only [exec, execBuild] at h
    split at h <;> cases h
    exact ⟨rfl, rfl, rfl⟩
  | cfgstk sel k =>
    simp only [exec, execCfgstk] at h
    split_ifs at h
    cases h
    exact ⟨rfl, rfl, rfl⟩
  | cfgsel p m =>
    simp only [exec, execCfgsel] at h
    split_ifs at h
    exact State.memWrite_scanRests h
  | wrbuf p w =>
    simp only [exec, execWrbuf] at h
    split_ifs at h
    exact State.memWrite_scanRests h
  | rdseg d =>
    simp only [exec, execRdseg] at h
    split_ifs at h
    split at h <;> cases h
    exact ⟨rfl, rfl, rfl⟩

theorem exec_scan {i : Instr} {s t : State} (h : exec i s = .next t) : s.ScanRests t ∨ s.ScanAdvances t := by
  by_cases hi : i = .tick
  · exact exec_tick_scan (hi ▸ h)
  · exact .inl (exec_scanRests hi h)

/-! ## One step -/

/-- What follows a refusal is the state from which the command was taken (R12). -/
theorem afterRefusal_next {s t : State} {r : Refusal} (h : afterRefusal s r = .next t) : t = s := by
  unfold afterRefusal at h
  split_ifs at h
  exact (Host.Outcome.next.inj h).symm

/-- All that a turn can lead to: the command is turned away, or its operation completes. -/
theorem turn_next_cases {x : Input} {s t : State} (h : turn x s = .next t) :
    t = s ∨ ∃ i, decodeInput x = .ok i ∧ exec i s = .next t := by
  obtain ⟨i, u, hdec, hexec, hturn⟩ | ⟨_, r, _, _, hturn⟩ | ⟨_, _, hturn⟩ := turn_cases x s
  · cases hturn.symm.trans h
    exact .inr ⟨i, hdec, hexec⟩
  · exact .inl (afterRefusal_next (hturn.symm.trans h))
  · cases hturn.symm.trans h
    exact .inl rfl

/-- A step leaves the scan where it stands or refreshes one position. -/
theorem step_scan {s t : State} (h : step s = .next t) : s.ScanRests t ∨ s.ScanAdvances t := by
  cases hin : s.inputs with
  | nil =>
    cases (step_nil hin).symm.trans h
    exact .inl ⟨rfl, rfl, rfl⟩
  | cons x rest =>
    obtain rfl | ⟨i, _, hexec⟩ := turn_next_cases ((step_cons hin).symm.trans h)
    · exact .inl ⟨rfl, rfl, rfl⟩
    · exact (exec_scan hexec).imp (fun ⟨hc, hp, ht⟩ => ⟨hc, hp, ht⟩) (fun ⟨hc, hp, ht⟩ => ⟨hc, hp, ht⟩)

/-! ## Any number of steps (R192) -/

/-- From one state to another `j` positions have been refreshed, one after the other modulo N. -/
structure State.ScansBy (j : Nat) (s t : State) : Prop where
  cfg_eq : t.cfg = s.cfg
  cursor_eq : t.cursor = (s.cursor + j) % s.cfg.n
  trace_length : t.trace.length = s.trace.length + 51 * j

theorem State.ScanRests.scansBy {s t : State} (h : s.ScanRests t) (hcursor : s.cursor < s.cfg.n) : State.ScansBy 0 s t :=
  ⟨h.cfg_eq, by rw [h.cursor_eq, Nat.add_zero, Nat.mod_eq_of_lt hcursor], by rw [h.trace_eq]; rfl⟩

theorem State.ScanAdvances.trace_length {s t : State} (h : s.ScanAdvances t) : t.trace.length = s.trace.length + 51 := by
  rw [h.trace_eq, List.length_append, tickTrace_length]

theorem State.ScanAdvances.scansBy {s t : State} (h : s.ScanAdvances t) : State.ScansBy 1 s t :=
  ⟨h.cfg_eq, h.cursor_eq, h.trace_length⟩

theorem State.ScansBy.trans {j k : Nat} {s t u : State} (hst : State.ScansBy j s t) (htu : State.ScansBy k t u) :
    State.ScansBy (j + k) s u where
  cfg_eq := htu.cfg_eq.trans hst.cfg_eq
  cursor_eq := by rw [htu.cursor_eq, hst.cursor_eq, hst.cfg_eq, Nat.mod_add_mod, Nat.add_assoc]
  trace_length := by rw [htu.trace_length, hst.trace_length]; omega

/-- The cursor remains a position (R37 a). -/
theorem State.ScansBy.cursor_lt {j : Nat} {s t : State} (h : State.ScansBy j s t) (hcursor : s.cursor < s.cfg.n) :
    t.cursor < t.cfg.n := by
  rw [h.cfg_eq, h.cursor_eq]
  exact Nat.mod_lt _ (Nat.zero_lt_of_lt hcursor)

theorem step_scansBy {s t : State} (hcursor : s.cursor < s.cfg.n) (h : step s = .next t) : ∃ j, State.ScansBy j s t := by
  obtain hrest | hadv := step_scan h
  · exact ⟨0, hrest.scansBy hcursor⟩
  · exact ⟨1, hadv.scansBy⟩

/-- Over any number of steps the cursor has moved by the number of positions refreshed. -/
theorem steps_scansBy {k : Nat} {s t : State} (hcursor : s.cursor < s.cfg.n) (h : steps k s = .next t) :
    ∃ j, State.ScansBy j s t := by
  induction k generalizing s with
  | zero =>
    cases h
    exact ⟨0, State.ScanRests.scansBy ⟨rfl, rfl, rfl⟩ hcursor⟩
  | succ k ih =>
    obtain ⟨u, hstep, hrest⟩ := andThen_next.1 h
    obtain ⟨i, hi⟩ := step_scansBy hcursor hstep
    obtain ⟨j, hj⟩ := ih (hi.cursor_lt hcursor) hrest
    exact ⟨i + j, hi.trans hj⟩

/-- A legal configuration has a position (R4). -/
theorem Config.n_pos_of_legal {c : Config} (hc : c.legal = true) : 0 < c.n := by
  simp only [Config.legal, Bool.and_eq_true, decide_eq_true_eq] at hc
  obtain ⟨⟨⟨⟨⟨⟨⟨hpos, -⟩, -⟩, -⟩, -⟩, -⟩, -⟩, -⟩ := hc
  exact hpos

/-- Fewer than N advances, but at least one, do not return the cursor to its position. -/
theorem add_mod_ne_of_lt {n c j : Nat} (hc : c < n) (hpos : 0 < j) (hj : j < n) : (c + j) % n ≠ c := by
  intro hback
  have hmod : c + j ≡ c [MOD n] := hback.trans (Nat.mod_eq_of_lt hc).symm
  exact Nat.not_dvd_of_pos_of_lt hpos hj (Nat.add_modEq_left_iff.1 hmod)

end Sys2Proof.Machine

namespace Sys2Proof.Proofs

open Sys2Proof.Machine

/-- Settles O37: a step rests the scan or advances it by one (`step_scan`), which adds up over any number
of steps (`steps_scansBy`); construction puts the cursor at 0 with an empty trace. -/
theorem cursorCountsInvocations : Obligations.CursorCountsInvocations := by
  refine ⟨fun s t _ h => ?_, fun k s t hinv h => ?_, fun c d ins k t hc h => ?_, fun n c j hc => ⟨?_, ?_⟩⟩
  · exact (step_scan h).imp (fun hr => ⟨hr.cursor_eq, hr.trace_eq⟩) (fun ha => ⟨ha.cursor_eq, ha.trace_length⟩)
  · obtain ⟨⟨_, _, hcursor⟩, _⟩ := hinv
    obtain ⟨j, hj⟩ := steps_scansBy hcursor h
    exact ⟨j, hj.trace_length, hj.cursor_eq⟩
  · obtain ⟨j, hj⟩ := steps_scansBy (Config.n_pos_of_legal hc) h
    exact ⟨j, by simpa [State.constructed] using hj.trace_length, by simpa [State.constructed] using hj.cursor_eq⟩
  · rw [Nat.add_mod_right, Nat.mod_eq_of_lt hc]
  · exact add_mod_ne_of_lt hc

end Sys2Proof.Proofs
end

section
/-! The timer interface and control (43_timer_control.md R210 to R214, R217): what one count and any number of counts do,
what arming and disabling leave behind, and the rate that `QRATE` returns. -/

namespace Sys2Proof.Machine

/-! ## One count (R210, R211) -/

theorem exec_tclk_of_stopped {s : State} (hrun : s.run = false) : exec .tclk s = .next s := by
  simp [exec, execTclk, hrun]

theorem exec_tclk_of_run {s : State} (hrun : s.run = true) :
    exec .tclk s = .next { s with tcnt := nextCount s.tcnt, tif := tifAfterCount s.tcnt s.tif } := by
  simp [exec, execTclk, hrun]

theorem atWrap_eq (tcnt : BitVec 8) : atWrap tcnt = decide (tcnt = 255#8) :=
  decide_eq_decide.2 (BitVec.toNat_eq (x := tcnt) (y := 255#8)).symm

/-- The wrap from `WRAP - 1` to 0 is that of an eight-bit sum (R31, R210). -/
theorem nextCount_eq_add_one (tcnt : BitVec 8) : nextCount tcnt = tcnt + 1#8 := by
  rw [nextCount, atWrap_eq]
  by_cases hwrap : tcnt = 255#8
  · rw [hwrap]
    rfl
  · rw [if_neg (by simpa using hwrap)]

/-- A count sets `TIF` when it carries out of the eight bits, and otherwise keeps it (R211). -/
theorem tifAfterCount_eq (tcnt : BitVec 8) (tif : Bool) : tifAfterCount tcnt tif = (decide (tcnt = 255#8) || tif) := by
  rw [tifAfterCount, atWrap_eq]

/-! ## Any number of counts (R211, R212) -/

/-- An expiry among a first count and `j` more: the first count wraps or leaves the rest one nearer to `WRAP`. -/
theorem expiry_succ_iff (tcnt : BitVec 8) (j : Nat) :
    (tcnt = 255#8 ∨ 256 ≤ (tcnt + 1#8).toNat + j) ↔ 256 ≤ tcnt.toNat + (j + 1) := by
  by_cases hwrap : tcnt = 255#8
  · have hlast : tcnt.toNat = 255 := congrArg BitVec.toNat hwrap
    exact iff_of_true (.inl hwrap) (by omega)
  · have hnext : (tcnt + 1#8).toNat = tcnt.toNat + 1 := by bv_omega
    rw [or_iff_right hwrap, hnext]
    omega

/-- `j` counts of a running timer: `TCNT` has grown by `j` modulo `WRAP`, and an expiry, once reached, stays pending
(R211). -/
theorem execAll_tclk_of_run {s : State} (hrun : s.run = true) (j : Nat) :
    execAll (List.replicate j .tclk) s =
      .next { s with tcnt := s.tcnt + BitVec.ofNat 8 j, tif := s.tif || decide (256 ≤ s.tcnt.toNat + j) } := by
  induction j generalizing s with
  | zero =>
    have hbelow : ¬256 ≤ s.tcnt.toNat := Nat.not_le.2 s.tcnt.isLt
    simp [execAll, hbelow]
  | succ j ih =>
    have hcount : s.tcnt + 1#8 + BitVec.ofNat 8 j = s.tcnt + BitVec.ofNat 8 (j + 1) := by bv_omega
    rw [List.replicate_succ, execAll, exec_tclk_of_run hrun, andThen, ih (by exact hrun)]
    simp only [nextCount_eq_add_one, tifAfterCount_eq, hcount, ← expiry_succ_iff s.tcnt j, Bool.decide_or,
      Bool.or_assoc, Bool.or_left_comm]

/-! ## The start condition (R102, R180) -/

theorem State.irq_of_mask {s : State} (hmask : s.mask = true) : s.irq = false := by simp [State.irq, hmask]

theorem State.irq_of_stopped {s : State} (hrun : s.run = false) : s.irq = false := by simp [State.irq, hrun]

/-! ## Arming (R213) -/

/-- The timer armed: it counts from `RELOAD` with no expiry pending (R213). -/
def State.armed (s : State) : State := { s with tcnt := s.cfg.reload, tif := false, run := true }

theorem exec_start_of_run {s : State} (hrun : s.run = true) : exec .start s = .refused .alreadyRunning := by
  simp [exec, execStart, hrun]

theorem exec_start_of_stopped {s : State} (hrun : s.run = false) : exec .start s = .next s.armed := by
  simp [exec, execStart, hrun, State.armed]

/-- `START` and then `j` counts (R212, R213). -/
theorem execAll_start_tclk {s : State} (hrun : s.run = false) (j : Nat) :
    execAll (.start :: List.replicate j .tclk) s =
      .next { s.armed with
        tcnt := s.cfg.reload + BitVec.ofNat 8 j
        tif := decide (256 ≤ s.cfg.reload.toNat + j) } := by
  rw [execAll, exec_start_of_stopped hrun]
  exact execAll_tclk_of_run rfl j

/-! ## Disabling (R214) -/

theorem exec_stop (s : State) : exec .stop s = .next { s with run := false, tif := false } := rfl

theorem State.set_run_tif_self {s : State} {run tif : Bool} (hrun : s.run = run) (htif : s.tif = tif) :
    { s with run := run, tif := tif } = s := by
  subst hrun htif
  rfl

/-- With nothing armed and nothing pending there is nothing to disable (R214). -/
theorem exec_stop_of_disabled {s : State} (hrun : s.run = false) (htif : s.tif = false) : exec .stop s = .next s := by
  rw [exec_stop, State.set_run_tif_self hrun htif]

/-! ## The rate (R217) -/

theorem Config.prescaler_pos_of_legal {c : Config} (hc : c.legal = true) : 0 < c.prescaler := by
  simp only [Config.legal, Bool.and_eq_true, decide_eq_true_eq] at hc
  obtain ⟨⟨⟨⟨-, hprescaler⟩, -⟩, -⟩, -⟩ := hc
  exact hprescaler

/-- A legal configuration guarantees that no divisor of the rate formula is 0 (R217). -/
theorem rateDivisor_pos_of_legal {c : Config} (hc : c.legal = true) : 0 < rateDivisor c := by
  have hreload : 0 < wrap - c.reload.toNat := Nat.sub_pos_of_lt c.reload.isLt
  exact Nat.mul_pos (Nat.mul_pos (Config.prescaler_pos_of_legal hc) (Config.n_pos_of_legal hc)) hreload

theorem rateResponse_of_fits {c : Config} (hc : c.legal = true) (hfits : c.fClock / rateDivisor c < 2 ^ 32) :
    rateResponse c = BitVec.ofNat 32 (c.fClock / rateDivisor c) :=
  if_pos ⟨(rateDivisor_pos_of_legal hc).ne', hfits⟩

/-- Dividing step by step, in the order in which the formula is written, gives the same number (R217). -/
theorem fClock_div_rateDivisor (c : Config) :
    c.fClock / rateDivisor c = c.fClock / c.prescaler / c.n / (256 - c.reload.toNat) := by
  rw [Nat.div_div_eq_div_mul, Nat.div_div_eq_div_mul, rateDivisor, wrap, Nat.mul_assoc]

theorem exec_qrate_of_fits {s : State} (hc : s.cfg.legal = true) (hfits : s.cfg.fClock / rateDivisor s.cfg < 2 ^ 32) :
    exec .qrate s = .next (s.respond (BitVec.ofNat 32 (s.cfg.fClock / rateDivisor s.cfg))) := by
  rw [← rateResponse_of_fits hc hfits]
  rfl

end Sys2Proof.Machine

namespace Sys2Proof.Proofs

open Sys2Proof.Machine

/-- Settles O23: arming puts the count at `RELOAD`, from where `j` counts expire exactly when they reach `WRAP`
(`execAll_tclk_of_run`); no count touches the mask, under which no `TICK` occurs. -/
theorem startArmsTheTimer : Obligations.StartArmsTheTimer := by
  intro s
  refine ⟨exec_start_of_run, exec_start_of_stopped, fun hrun j => ⟨_, execAll_start_tclk hrun j, ?_, fun hmask => ?_⟩⟩
  · have hexpiry : 256 ≤ s.cfg.reload.toNat + j ↔ 256 - s.cfg.reload.toNat ≤ j := by omega
    exact decide_eq_decide.2 hexpiry
  · exact exec_tick_of_not_irq (State.irq_of_mask hmask)

/-- Settles O26: no divisor of a legal configuration is 0, and the nested quotients are the one quotient. -/
theorem qrateReturnsTheRate : Obligations.QrateReturnsTheRate := by
  intro s hc
  refine ⟨fun hclock => (Nat.div_le_self _ _).trans_lt hclock, fun hfits => ⟨exec_qrate_of_fits hc hfits, ?_⟩⟩
  rw [← fClock_div_rateDivisor]
  exact exec_qrate_of_fits hc hfits

/-- Settles O22: a count below 255 carries nothing out, and at 255 the eight-bit sum is 0 with an expiry. -/
theorem tclkCounts : Obligations.TclkCounts := by
  intro s
  refine ⟨exec_tclk_of_stopped, fun hrun hbelow => ?_, fun hrun hwrap => ?_⟩
  · rw [exec_tclk_of_run hrun, nextCount_eq_add_one, tifAfterCount_eq, decide_eq_false hbelow, Bool.false_or]
  · rw [exec_tclk_of_run hrun, nextCount_eq_add_one, tifAfterCount_eq, hwrap]
    rfl

/-- Settles O24: with `RUN = 0` the timer stands still and the start condition fails; by the invariant a stopped timer has
no expiry pending, so that `STOP` finds both flags 0. -/
theorem stopDisablesTheCycle : Obligations.StopDisablesTheCycle := by
  intro s
  refine ⟨exec_stop s, fun t hstop => ?_, fun ⟨_, _, _, hpending⟩ hrun => ?_⟩
  · cases hstop
    exact ⟨exec_tclk_of_stopped rfl, exec_tick_of_not_irq (State.irq_of_stopped rfl), exec_stop_of_disabled rfl rfl⟩
  · have htif : s.tif = false := by simpa [State.PendingArmed, hrun] using hpending
    exact exec_stop_of_disabled hrun htif

end Sys2Proof.Proofs
end

section
/-! The encoding (30_encoding.md R98 to R103): the fields of a command word, the words that decode, and the rows of the
opcode map as conditions on the fields. -/

namespace Sys2Proof

/-! ## The fields of a command word (R98) -/

@[simp] theorem opField_formatH (op a : Nat) (imm : Word) : opField (formatH op a imm) = BitVec.ofNat 4 op :=
  (Laws.formatH_fields op a imm).1

@[simp] theorem zField_formatH (op a : Nat) (imm : Word) : zField (formatH op a imm) = 0#8 :=
  (Laws.formatH_fields op a imm).2

@[simp] theorem immField_formatH (op a : Nat) (imm : Word) : immField (formatH op a imm) = imm :=
  BitVec.extractLsb'_append_eq_right

@[simp] theorem aField_formatH (op a : Nat) (imm : Word) : aField (formatH op a imm) = BitVec.ofNat 4 a := by
  rw [aField, formatH, BitVec.extractLsb'_append_eq_of_le (by omega), BitVec.extractLsb'_append_eq_of_le (by omega)]
  exact BitVec.extractLsb'_append_eq_right

/-- `imm` in the two parts of `CFGSTK` (R99). -/
theorem immField_eq_append (w : HostWord) : immField w = immHigh w ++ immLow w :=
  (BitVec.extractLsb'_append_extractLsb'_eq_extractLsb' (start₁ := 0) (len₁ := 4) rfl).symm

theorem immHigh_eq (w : HostWord) : immHigh w = (immField w).extractLsb' 4 12 := by
  rw [immField_eq_append, BitVec.extractLsb'_append_eq_left]

theorem immLow_eq (w : HostWord) : immLow w = (immField w).extractLsb' 0 4 := by
  rw [immField_eq_append, BitVec.extractLsb'_append_eq_right]

theorem immField_eq_zero_iff (w : HostWord) : immField w = 0#16 ↔ immHigh w = 0#12 ∧ immLow w = 0#4 := by
  refine ⟨fun h => ⟨?_, ?_⟩, fun ⟨hhigh, hlow⟩ => ?_⟩
  · rw [immHigh_eq, h]
    rfl
  · rw [immLow_eq, h]
    rfl
  · rw [immField_eq_append, hhigh, hlow]
    rfl

/-- The fields make up the word (R98). -/
theorem append_fields (w : HostWord) : opField w ++ aField w ++ zField w ++ immField w = w := by
  have htop : opField w ++ aField w = w.extractLsb' 24 8 := BitVec.extractLsb'_append_extractLsb'_eq_extractLsb' rfl
  have hhalf : w.extractLsb' 24 8 ++ zField w = w.extractLsb' 16 16 :=
    BitVec.extractLsb'_append_extractLsb'_eq_extractLsb' rfl
  rw [htop, hhalf]
  exact BitVec.extractLsb'_append_extractLsb'

/-- A word whose `z` field is zero is the formatted word of its other fields. -/
theorem formatH_of_fields {w : HostWord} {op a : Nat} {imm : Word} (hz : zField w = 0#8) (hop : (opField w).toNat = op)
    (ha : (aField w).toNat = a) (himm : immField w = imm) : formatH op a imm = w := by
  subst hop ha himm
  have happ := append_fields w
  rw [hz] at happ
  rw [formatH, BitVec.ofNat_toNat, BitVec.ofNat_toNat, BitVec.setWidth_eq, BitVec.setWidth_eq, happ]

/-- Words agree exactly when their fields do. -/
theorem eq_iff_fields_eq (v w : HostWord) :
    v = w ↔ opField v = opField w ∧ aField v = aField w ∧ zField v = zField w ∧ immHigh v = immHigh w ∧
      immLow v = immLow w := by
  refine ⟨fun h => by simp [h], fun ⟨hop, ha, hz, hhigh, hlow⟩ => ?_⟩
  rw [← append_fields v, ← append_fields w, immField_eq_append, immField_eq_append, hop, ha, hz, hhigh, hlow]

/-! ## The decoder (R100, R101) -/

theorem whenZero_ok {zero : Bool} {i j : Instr} : whenZero zero i = .ok j ↔ zero = true ∧ i = j := by
  cases zero <;> simp [whenZero]

theorem toNat_ofNat_four {n : Nat} (h : n < 16) : (BitVec.ofNat 4 n).toNat = n := by
  simpa using Nat.mod_eq_of_lt h

/-- The bit position of `CFGSTK` in the immediate that carries it: nothing above it is set (R99). -/
theorem cfgstk_imm {k : Nat} (hk : k < 16) :
    (BitVec.ofNat 16 k).extractLsb' 4 12 = 0#12 ∧ ((BitVec.ofNat 16 k).extractLsb' 0 4).toNat = k := by
  have hlt : k < 65536 := by omega
  constructor
  · apply BitVec.eq_of_toNat_eq
    simp [BitVec.extractLsb'_toNat, Nat.mod_eq_of_lt hlt, Nat.shiftRight_eq_div_pow, Nat.div_eq_of_lt hk]
  · simp [BitVec.extractLsb'_toNat, Nat.mod_eq_of_lt hlt, Nat.mod_eq_of_lt hk]

theorem decode_formatH_cfgstk {s k : Nat} (hs : s < 16) (hk : k < 16) :
    decode (formatH 9 s (BitVec.ofNat 16 k)) = .ok (.cfgstk s k) := by
  obtain ⟨hhigh, hlow⟩ := cfgstk_imm hk
  simp [decode, whenZero, immHigh_eq, immLow_eq, hhigh, hlow, Nat.mod_eq_of_lt hs]

/-- No bit of an encoding is dropped (R98, R100). -/
theorem decodeInput_encode {i : Instr} (h : i.wellFormed = true) : decodeInput (encode i) = .ok i := by
  cases i with
  | wrbuf p w | rdseg p | cfgsel p w =>
    simp only [Instr.wellFormed, decide_eq_true_eq] at h
    simp [encode, decodeInput, decode, whenZero, Nat.mod_eq_of_lt h]
  | cfgstk s k =>
    simp only [Instr.wellFormed, Bool.and_eq_true, decide_eq_true_eq] at h
    obtain ⟨hs, hk⟩ := h
    exact decode_formatH_cfgstk hs hk
  | di | ei | start | stop | qrate | build => simp [encode, decodeInput, decode, whenZero]
  | tick | tclk => rfl

/-- The word of an immediate whose upper part is zero (R99). -/
theorem immField_of_immHigh {w : HostWord} (h : immHigh w = 0#12) : immField w = BitVec.ofNat 16 (immLow w).toNat := by
  rw [immField_eq_append, h]
  apply BitVec.eq_of_toNat_eq
  have hlt := (immLow w).isLt
  rw [BitVec.toNat_append, BitVec.toNat_zero, Nat.zero_shiftLeft, Nat.zero_or, BitVec.toNat_ofNat,
    Nat.mod_eq_of_lt (by omega)]

/-- A word decodes to an operation that fits its fields, and is its encoding (R98 to R101). -/
theorem decode_ok {w : HostWord} {i : Instr} (h : decode w = .ok i) : i.wellFormed = true ∧ encode i = .command w := by
  have ha : (aField w).toNat < 16 := (aField w).isLt
  unfold decode at h
  dsimp only at h
  split at h
  case h_1 hop | h_8 hop =>
    obtain ⟨hz, rfl⟩ := whenZero_ok.1 h
    exact ⟨by simpa [Instr.wellFormed] using ha,
      congrArg Input.command (formatH_of_fields (of_decide_eq_true hz) hop rfl rfl)⟩
  case h_2 hop =>
    obtain ⟨hzero, rfl⟩ := whenZero_ok.1 h
    simp only [Bool.and_eq_true, decide_eq_true_eq] at hzero
    exact ⟨by simpa [Instr.wellFormed] using ha, congrArg Input.command (formatH_of_fields hzero.1 hop rfl hzero.2)⟩
  case h_9 hop =>
    obtain ⟨hzero, rfl⟩ := whenZero_ok.1 h
    simp only [Bool.and_eq_true, decide_eq_true_eq] at hzero
    have hk : (immLow w).toNat < 16 := (immLow w).isLt
    exact ⟨by simpa [Instr.wellFormed] using ⟨ha, hk⟩,
      congrArg Input.command (formatH_of_fields hzero.1 hop rfl (immField_of_immHigh hzero.2))⟩
  case h_11 => cases h
  all_goals
    next hop =>
      obtain ⟨hzero, rfl⟩ := whenZero_ok.1 h
      simp only [Bool.and_eq_true, decide_eq_true_eq] at hzero
      obtain ⟨⟨hz, himm⟩, ha0⟩ := hzero
      exact ⟨rfl, congrArg Input.command (formatH_of_fields hz hop (by rw [ha0]; rfl) himm)⟩

/-- So is every input (R102). -/
theorem decodeInput_ok {x : Input} {i : Instr} (h : decodeInput x = .ok i) : i.wellFormed = true ∧ encode i = x := by
  cases x with
  | command w => exact decode_ok h
  | tick | tclk =>
    cases h
    exact ⟨rfl, rfl⟩

/-! ## The opcode map (R100) -/

/-- The fields of a word that some row accepts: `z` is zero, and what the operation does not use of the others is zero
(R99, R100). -/
def FieldsAccepted (w : HostWord) : Prop :=
  zField w = 0#8 ∧
    ((opField w = 1#4 ∨ opField w = 8#4) ∨ (opField w = 9#4 ∧ immHigh w = 0#12) ∨ (opField w = 2#4 ∧ immField w = 0#16) ∨
      ((opField w = 3#4 ∨ opField w = 4#4 ∨ opField w = 5#4 ∨ opField w = 6#4 ∨ opField w = 7#4 ∨ opField w = 10#4) ∧
        immField w = 0#16 ∧ aField w = 0#4))

/-- The sixteen values of a four-bit field. -/
theorem fourBits_cases (x : BitVec 4) :
    x = 0#4 ∨ x = 1#4 ∨ x = 2#4 ∨ x = 3#4 ∨ x = 4#4 ∨ x = 5#4 ∨ x = 6#4 ∨ x = 7#4 ∨ x = 8#4 ∨ x = 9#4 ∨ x = 10#4 ∨
      x = 11#4 ∨ x = 12#4 ∨ x = 13#4 ∨ x = 14#4 ∨ x = 15#4 := by
  revert x
  decide

theorem whenZero_isOk {zero : Bool} {i : Instr} : (∃ j, whenZero zero i = .ok j) ↔ zero = true := by
  simp [whenZero_ok]

/-- The words that decode, by their fields (R100, R101). -/
theorem decode_isOk_iff (w : HostWord) : (∃ i, decode w = .ok i) ↔ FieldsAccepted w := by
  unfold FieldsAccepted decode
  obtain h | h | h | h | h | h | h | h | h | h | h | h | h | h | h | h := fourBits_cases (opField w) <;>
    simp [h, whenZero_isOk, and_assoc]

theorem decode_isError_iff (w : HostWord) : (∃ e, decode w = .error e) ↔ ¬FieldsAccepted w := by
  rw [← decode_isOk_iff]
  cases decode w <;> simp

/-- A row selects a word by its fields: under the row's mask they are the row's. -/
theorem OpcodeRow.selects_iff (r : OpcodeRow) (w : HostWord) :
    r.selects w = true ↔ opField w &&& opField r.mask = opField r.pattern ∧ aField w &&& aField r.mask = aField r.pattern ∧
      zField w &&& zField r.mask = zField r.pattern ∧ immHigh w &&& immHigh r.mask = immHigh r.pattern ∧
      immLow w &&& immLow r.mask = immLow r.pattern := by
  simp only [OpcodeRow.selects, decide_eq_true_eq, eq_iff_fields_eq, opField, aField, zField, immHigh, immLow,
    BitVec.extractLsb'_and]


/-- The words that some row selects, by their fields (R100). -/
theorem opcodeMap_selects_iff (w : HostWord) : (∃ r ∈ opcodeMap, r.selects w = true) ↔ FieldsAccepted w := by
  have hx (x : BitVec 4) : x &&& 15#4 = x := BitVec.and_allOnes
  have hy (y : BitVec 8) : y &&& 255#8 = y := BitVec.and_allOnes
  have hz (z : BitVec 12) : z &&& 4095#12 = z := BitVec.and_allOnes
  simp only [FieldsAccepted, immField_eq_zero_iff]
  simp only [opcodeMap, List.mem_cons, List.not_mem_nil, or_false, exists_eq_or_imp, exists_eq_left,
    OpcodeRow.selects_iff, opField, aField, zField, immHigh, immLow, BitVec.reduceExtractLsb', hx, hy, hz,
    BitVec.and_zero, and_self, and_true, true_and]
  grind

/-- Two rows that select one word agree wherever both masks have a one. -/
theorem OpcodeRow.and_mask_of_selects {r₁ r₂ : OpcodeRow} {w : HostWord} (h₁ : r₁.selects w = true)
    (h₂ : r₂.selects w = true) : r₁.pattern &&& r₂.mask = r₂.pattern &&& r₁.mask := by
  simp only [OpcodeRow.selects, decide_eq_true_eq] at h₁ h₂
  rw [← h₁, ← h₂, BitVec.and_assoc, BitVec.and_assoc, BitVec.and_comm r₁.mask]

/-- In the opcode map no two rows agree so (R100). -/
theorem opcodeMap_separated :
    ∀ r₁ ∈ opcodeMap, ∀ r₂ ∈ opcodeMap, r₁.pattern &&& r₂.mask = r₂.pattern &&& r₁.mask → r₁ = r₂ := by decide

/-- A word that no row accepts, by what is wrong with it (R101). -/
theorem not_fieldsAccepted_iff (w : HostWord) :
    ¬FieldsAccepted w ↔ opField w = 0#4 ∨ 11 ≤ (opField w).toNat ∨ zField w ≠ 0#8 ∨
      (opField w ≠ 1#4 ∧ opField w ≠ 8#4 ∧ opField w ≠ 9#4 ∧ immField w ≠ 0#16) ∨
      (opField w = 9#4 ∧ immHigh w ≠ 0#12) ∨
      (opField w ≠ 1#4 ∧ opField w ≠ 2#4 ∧ opField w ≠ 8#4 ∧ opField w ≠ 9#4 ∧ aField w ≠ 0#4) := by
  unfold FieldsAccepted
  obtain h | h | h | h | h | h | h | h | h | h | h | h | h | h | h | h := fourBits_cases (opField w) <;>
    simp [h, imp_iff_not_or]

end Sys2Proof

namespace Sys2Proof.Machine

/-! ## A command that does not decode (R101) -/

theorem headRefusal_of_decode_error {s : State} {w : HostWord} {e : Reject} {rest : List Input} (h : decode w = .error e)
    (hin : s.inputs = .command w :: rest) : s.headRefusal = some .reservedEncoding := by
  simp [State.headRefusal, hin, decodeInput, h]

/-- It is taken off the schedule, and that is all (log 4). -/
theorem step_of_decode_error {s : State} {w : HostWord} {e : Reject} {rest : List Input} (h : decode w = .error e)
    (hin : s.inputs = .command w :: rest) : step s = .next { s with inputs := rest, resp := none } := by
  simp only [step_cons hin, turn, decodeInput, h]
  rfl

end Sys2Proof.Machine

namespace Sys2Proof.Proofs

open Sys2Proof.Machine

/-- Settles O1: each operation's fields are those of the word that encodes it, and every operand comes back from its
field. -/
theorem decodeOfEncodeGivesTheOperation : Obligations.DecodeOfEncodeGivesTheOperation :=
  fun _ h => decodeInput_encode h

/-- Settles O2: a word that decodes has zeros wherever its operation uses no bit, so that it is put together again from the
fields that were read. -/
theorem encodeOfDecodeGivesTheInput : Obligations.EncodeOfDecodeGivesTheInput :=
  fun _ _ h => decodeInput_ok h

/-- Settles O3: the words that decode and the words that some row selects have the same fields. -/
theorem reservedEncodingsAreRefused : Obligations.ReservedEncodingsAreRefused := by
  refine ⟨fun w => ?_, fun w => ?_, fun s w e rest h hin => ⟨?_, ?_⟩⟩
  · rw [decode_isOk_iff, opcodeMap_selects_iff]
  · rw [decode_isError_iff, not_fieldsAccepted_iff]
  · exact headRefusal_of_decode_error h hin
  · exact step_of_decode_error h hin

/-- Settles O4: a word that two rows select makes them agree under both masks, which two different rows never do. -/
theorem opcodeRowsDoNotOverlap : Obligations.OpcodeRowsDoNotOverlap :=
  fun _ r₁ r₂ hm₁ hm₂ h₁ h₂ => opcodeMap_separated r₁ hm₁ r₂ hm₂ (OpcodeRow.and_mask_of_selects h₁ h₂)

/-- Settles O5, by running the decoder on the eight words. -/
theorem sampleWordsDecode : Obligations.SampleWordsDecode := by
  unfold Obligations.SampleWordsDecode
  decide

end Sys2Proof.Proofs
end

section
/-! What each operation does, said once: an operation that answers next has its one effect, and a refusal is one of the
spec's. -/

namespace Sys2Proof.Machine

/-! ## The lines and the chain over a `TICK` (R185, R190) -/

/-- One or more transfers from `SCLK = 0` change only `DATA`, which ends at the last bit, and the shift stages (R185). -/
theorem Wires.replay_bitTrace_succ {w : Wires} (hsclk : w.sclk = false) (word : Word) (k : Nat) :
    w.replay (bitTrace word (k + 1)) =
      { w with data := word.getLsbD 0, sr := (w.replay (bitTrace word (k + 1))).sr } := by
  induction k generalizing w with
  | zero => simp only [bitTrace, Wires.replay_cons, Wires.replay_nil, Wires.drive_transfer hsclk]
  | succ k ih =>
    rw [bitTrace, Wires.replay_cons, Wires.replay_cons, Wires.replay_cons, Wires.drive_transfer hsclk, ih (by exact hsclk)]

/-- The sixteen transfers leave the word in the shift stages (R184). -/
theorem Wires.replay_bitTrace_sixteen {w : Wires} (hsclk : w.sclk = false) (word : Word) :
    w.replay (bitTrace word 16) = { w with data := word.getLsbD 0, sr := word } := by
  have hsr : (w.replay (bitTrace word 16)).sr = word := by
    refine BitVec.eq_of_getLsbD_eq fun i hi => ?_
    rw [Wires.getLsbD_replay_bitTrace hsclk word 16 hi, if_pos hi]
  rw [Wires.replay_bitTrace_succ hsclk word 15, hsr]

/-- The events of a `TICK` leave its word in the stages and in the latches, whatever the chain held (R190). -/
theorem Wires.replay_tickTrace {w : Wires} (hsclk : w.sclk = false) (word : Word) :
    w.replay (tickTrace word) = { data := word.getLsbD 0, sclk := false, latch := false, sr := word, q := word } := by
  have hlow : (w.drive ⟨.latch, false⟩).sclk = false := hsclk
  rw [tickTrace, Wires.replay_cons, Wires.replay_append, Wires.replay_bitTrace_sixteen hlow]
  simp [Wires.drive, hsclk]

/-! ## What an invocation leaves (R180 to R187) -/

/-- The state after an invocation that sends a word: `TCNT` re-armed, `TIF` taken, the cursor advanced, the engine idle, and
lines, chain and trace as the events of the word make them. -/
def State.refreshed (s : State) (word : Word) : State :=
  { s with
    word := word, tcnt := s.cfg.reload, tif := false, cursor := (s.cursor + 1) % s.cfg.n
    insvc := false, phase := .idle, bitcnt := 0#5
    wires := s.wires.replay (tickTrace word), trace := s.trace ++ tickTrace word }

/-- One or more bits of step 4: their events, and the latch pulse is next (R184, R185). -/
theorem stepShift_succ_eq (k : Nat) (s : State) :
    stepShift (k + 1) s =
      { s with
        wires := s.wires.replay (bitTrace s.word (k + 1)), trace := s.trace ++ bitTrace s.word (k + 1)
        bitcnt := 0#5, phase := .latchPulse } := by
  induction k generalizing s with
  | zero => simp [stepShift, stepShiftOne, State.shiftBit, State.emit, bitTrace]
  | succ k ih =>
    rw [stepShift, ih]
    simp [bitTrace, stepShiftOne, State.shiftBit, State.emit]

/-- All that an invocation can do: the two reads of step 3 succeed and their word is sent. -/
theorem invocation_next_iff {s t : State} :
    invocation s = .next t ↔ ∃ m e, s.memRead .selrom s.cursor = some m ∧ s.memRead .buf s.cursor = some e ∧
      t = s.refreshed (m ||| ~~~e) := by
  have hsent (m e : Word) :
      stepAdvance (stepLatchPulse (stepShift 16
        { stepLatchLow (stepRearm s.takeInterrupt) with word := m ||| ~~~e, bitcnt := 16#5, phase := .shift })) =
      s.refreshed (m ||| ~~~e) := by
    rw [stepShift_succ_eq]
    simp [State.refreshed, stepAdvance, State.returnFromInterrupt, stepLatchPulse, State.emit, stepLatchLow, stepRearm,
      State.takeInterrupt, tickTrace, Wires.replay_append]
  rw [invocation_next]
  constructor
  · rintro ⟨u, hu, rfl⟩
    obtain ⟨m, e, hm, he, rfl⟩ := stepCompose_some.1 hu
    exact ⟨m, e, hm, he, hsent m e⟩
  · rintro ⟨m, e, hm, he, rfl⟩
    exact ⟨_, stepCompose_some.2 ⟨m, e, hm, he, rfl⟩, (hsent m e).symm⟩

/-! ## All that an operation can do when it completes -/

theorem exec_wrbuf_next {s t : State} {p : Nat} {w : Word} :
    exec (.wrbuf p w) s = .next t ↔ p < s.cfg.n ∧ p < s.mem.buf.length ∧ t = s.storeElement .buf p w := by
  by_cases hp : p < s.cfg.n
  · simp only [exec, execWrbuf, positionInRange, hp, decide_true, if_true, true_and]
    exact State.memWrite_next
  · simp [exec, execWrbuf, positionInRange, hp]

theorem exec_rdseg_next {s t : State} {d : Nat} :
    exec (.rdseg d) s = .next t ↔
      d < s.cfg.nglyph ∧ ∃ e, s.memRead .segrom d = some e ∧ t = s.respond (zeroExtended e) := by
  by_cases hd : d < s.cfg.nglyph
  · cases he : s.memRead .segrom d <;> simp [exec, execRdseg, digitInRange, hd, he, eq_comm]
  · simp [exec, execRdseg, digitInRange, hd]

theorem exec_start_next {s t : State} : exec .start s = .next t ↔ s.run = false ∧ t = s.armed := by
  obtain hrun | hrun := Bool.eq_false_or_eq_true s.run
  · simp [exec_start_of_run hrun, hrun]
  · simp [exec_start_of_stopped hrun, hrun, eq_comm]

theorem exec_cfgsel_next {s t : State} {p : Nat} {m : Word} :
    exec (.cfgsel p m) s = .next t ↔
      s.run = false ∧ p < s.cfg.n ∧ p < s.mem.selrom.length ∧ t = s.storeElement .selrom p m := by
  obtain hrun | hrun := Bool.eq_false_or_eq_true s.run
  · simp [exec_cfgsel_of_run hrun, hrun]
  · by_cases hp : p < s.cfg.n
    · simp only [exec, execCfgsel, positionInRange, hrun, hp, decide_true, if_true, true_and, Bool.false_eq_true, if_false]
      exact State.memWrite_next
    · simp [exec_cfgsel_of_le hrun (Nat.not_lt.1 hp), hp]

theorem exec_cfgstk_next {s t : State} {sel k : Nat} :
    exec (.cfgstk sel k) s = .next t ↔
      s.run = false ∧ sel < 8 ∧ t = { s with stkpos := s.stkpos.setIfInBounds sel (bitPosition k) } := by
  obtain hrun | hrun := Bool.eq_false_or_eq_true s.run
  · simp [exec_cfgstk_of_run hrun, hrun]
  · by_cases hsel : sel < 8
    · rw [exec_cfgstk_of_lt hrun hsel]
      exact ⟨fun h => ⟨hrun, hsel, (Host.Outcome.next.inj h).symm⟩, fun ⟨_, _, h⟩ => congrArg _ h.symm⟩
    · simp [exec_cfgstk_of_le hrun (Nat.not_lt.1 hsel), hsel]

/-- The state after a `BUILD` (R124). -/
def State.built (s : State) : State :=
  { s with
    segmask := orAll s.mem.selrom
    dpbit := bitMask (pointPos s.stkpos)
    mem := s.mem.withSpace .segrom (segmentTable s.stkpos (orAll s.mem.selrom) s.cfg.glyph) }

theorem exec_build_next {s t : State} : exec .build s = .next t ↔ s.run = false ∧ t = s.built := by
  obtain hrun | hrun := Bool.eq_false_or_eq_true s.run
  · simp [exec_build_of_run hrun, hrun]
  · rw [exec_build_of_stopped hrun]
    exact ⟨fun h => ⟨hrun, (Host.Outcome.next.inj h).symm⟩, fun ⟨_, h⟩ => congrArg _ h.symm⟩

theorem exec_tick_next_of_irq {s t : State} (hirq : s.irq = true) :
    exec .tick s = .next t ↔
      ∃ m e, s.memRead .selrom s.cursor = some m ∧ s.memRead .buf s.cursor = some e ∧ t = s.refreshed (m ||| ~~~e) := by
  rw [exec_tick_of_irq hirq, invocation_next_iff]

theorem exec_tick_next {s t : State} :
    exec .tick s = .next t ↔ (s.irq = false ∧ t = s) ∨ (s.irq = true ∧
      ∃ m e, s.memRead .selrom s.cursor = some m ∧ s.memRead .buf s.cursor = some e ∧ t = s.refreshed (m ||| ~~~e)) := by
  cases hirq : s.irq with
  | true => simp [exec_tick_next_of_irq hirq]
  | false => simp [exec_tick_of_not_irq hirq, eq_comm]

/-- The state after one count of the prescaled clock (R210, R211). -/
def State.counted (s : State) : State :=
  if s.run then { s with tcnt := nextCount s.tcnt, tif := tifAfterCount s.tcnt s.tif } else s

theorem exec_tclk (s : State) : exec .tclk s = .next s.counted := by
  cases hrun : s.run <;> simp [exec, execTclk, State.counted, hrun]

theorem exec_tclk_next {s t : State} : exec .tclk s = .next t ↔ t = s.counted := by
  simp [exec_tclk, eq_comm]

theorem State.counted_of_run {s : State} (hrun : s.run = true) :
    s.counted = { s with tcnt := nextCount s.tcnt, tif := tifAfterCount s.tcnt s.tif } := if_pos hrun

theorem State.counted_of_stopped {s : State} (hrun : s.run = false) : s.counted = s := by simp [State.counted, hrun]

/-! ## All that a refusal can be (R241) -/

theorem State.memWrite_refused {s : State} {sp : Space} {i : Nat} {v : Word} {r : Refusal}
    (h : s.memWrite sp i v = .refused r) : r = .indexRange := by
  unfold State.memWrite at h
  split_ifs at h
  exact (Host.Outcome.refused.inj h).symm

theorem invocation_refused {s : State} {r : Refusal} (h : invocation s = .refused r) : r = .indexRange := by
  unfold invocation at h
  split at h <;> cases h
  rfl

/-- Every refusal of an operation is one of three. -/
theorem exec_refused {i : Instr} {s : State} {r : Refusal} (h : exec i s = .refused r) :
    r = .indexRange ∨ r = .configWhileRunning ∨ r = .alreadyRunning := by
  cases i with
  | wrbuf p w =>
    simp only [exec, execWrbuf] at h
    split_ifs at h
    · exact .inl (State.memWrite_refused h)
    · cases h; exact .inl rfl
  | rdseg d =>
    simp only [exec, execRdseg] at h
    split_ifs at h
    · split at h <;> cases h
      exact .inl rfl
    · cases h; exact .inl rfl
  | di | ei | stop | qrate => cases h
  | start =>
    simp only [exec, execStart] at h
    split_ifs at h
    cases h; exact .inr (.inr rfl)
  | cfgsel p m =>
    simp only [exec, execCfgsel] at h
    split_ifs at h
    · cases h; exact .inr (.inl rfl)
    · exact .inl (State.memWrite_refused h)
    · cases h; exact .inl rfl
  | cfgstk sel k =>
    simp only [exec, execCfgstk] at h
    split_ifs at h <;> cases h
    · exact .inr (.inl rfl)
    · exact .inl rfl
  | build =>
    simp only [exec, execBuild] at h
    split_ifs at h
    cases h; exact .inr (.inl rfl)
  | tick =>
    simp only [exec, execTick] at h
    split_ifs at h
    exact .inl (invocation_refused h)
  | tclk => cases (exec_tclk s).symm.trans h

/-- A refused operation ends nothing (R12). -/
theorem afterRefusal_of_exec_refused {i : Instr} {s : State} {r : Refusal} (h : exec i s = .refused r) :
    afterRefusal s r = .next s := by
  obtain rfl | rfl | rfl := exec_refused h <;> rfl

/-! ## One step by what its input decodes to -/

theorem step_of_exec_next {s t : State} {x : Input} {rest : List Input} {i : Instr} (hin : s.inputs = x :: rest)
    (hdec : decodeInput x = .ok i) (h : exec i (s.takeInput x rest) = .next t) : step s = .next t := by
  rw [step_cons hin, turn, hdec]
  simp [h, afterExec]

theorem step_of_exec_refused {s : State} {x : Input} {rest : List Input} {i : Instr} {r : Refusal}
    (hin : s.inputs = x :: rest) (hdec : decodeInput x = .ok i) (h : exec i (s.takeInput x rest) = .refused r) :
    step s = .next (s.takeInput x rest) := by
  rw [step_cons hin, turn, hdec]
  simp [h, afterExec, afterRefusal_of_exec_refused h]

theorem step_of_decodeInput_error {s : State} {x : Input} {rest : List Input} {e : Reject} (hin : s.inputs = x :: rest)
    (hdec : decodeInput x = .error e) : step s = .next (s.takeInput x rest) := by
  rw [step_cons hin, turn, hdec]
  rfl

/-- The block never stops (R10, R12). -/
theorem step_next (s : State) : ∃ t, step s = .next t := by
  cases hin : s.inputs with
  | nil => exact ⟨s, step_nil hin⟩
  | cons x rest =>
    cases hdec : decodeInput x with
    | error e => exact ⟨_, step_of_decodeInput_error hin hdec⟩
    | ok i =>
      cases hexec : exec i (s.takeInput x rest) with
      | next t => exact ⟨t, step_of_exec_next hin hdec hexec⟩
      | refused r => exact ⟨_, step_of_exec_refused hin hdec hexec⟩
      | fault f => cases f

theorem steps_next (k : Nat) (s : State) : ∃ t, steps k s = .next t := by
  induction k generalizing s with
  | zero => exact ⟨s, rfl⟩
  | succ k ih =>
    obtain ⟨u, hu⟩ := step_next s
    obtain ⟨t, ht⟩ := ih u
    exact ⟨t, andThen_next.2 ⟨u, hu, ht⟩⟩

theorem steps_of_nil {s : State} (hin : s.inputs = []) (k : Nat) : steps k s = .next s := by
  induction k with
  | zero => rfl
  | succ k ih => rw [steps, step_nil hin, andThen, ih]

end Sys2Proof.Machine
end

section
/-! Ownership, the invariant, and what a run keeps (10_state.md R20, R37; 20_memory.md R70 to R72). -/

namespace Sys2Proof.Proofs

open Sys2Proof.Machine

/-- Settles O44: the one effect of each operation, field by field. -/
theorem onlyTheOwnerWrites : Obligations.OnlyTheOwnerWrites := by
  intro i s t h
  cases i with
  | di | ei | stop | qrate =>
    cases h
    simp
  | wrbuf p w =>
    obtain ⟨_, _, rfl⟩ := exec_wrbuf_next.1 h
    simp [Memory.withSpace]
  | rdseg d =>
    obtain ⟨_, e, _, rfl⟩ := exec_rdseg_next.1 h
    simp
  | start =>
    obtain ⟨_, rfl⟩ := exec_start_next.1 h
    simp [State.armed]
  | cfgsel p m =>
    obtain ⟨_, _, _, rfl⟩ := exec_cfgsel_next.1 h
    simp [Memory.withSpace]
  | cfgstk sel k =>
    obtain ⟨_, _, rfl⟩ := exec_cfgstk_next.1 h
    simp
  | build =>
    obtain ⟨_, rfl⟩ := exec_build_next.1 h
    simp [State.built, Memory.withSpace]
  | tick =>
    obtain ⟨_, rfl⟩ | ⟨_, m, e, _, _, rfl⟩ := exec_tick_next.1 h
    · simp
    · simp [State.refreshed]
  | tclk =>
    obtain rfl := exec_tclk_next.1 h
    obtain hrun | hrun := Bool.eq_false_or_eq_true s.run
    · simp [State.counted_of_run hrun]
    · simp [State.counted_of_stopped hrun]

end Sys2Proof.Proofs

namespace Sys2Proof.Machine

/-! ## The invariant (R37) -/

/-- Every built pattern holds the segment mask (R37 e, R90). -/
theorem segmentPattern_and_segmask (stkpos : Vector (BitVec 4) 8) (segmask : Word) (g : List Stroke) :
    segmentPattern stkpos segmask g &&& segmask = segmask := by
  apply BitVec.eq_of_getLsbD_eq
  intro i _
  cases hbit : segmask.getLsbD i <;> simp [segmentPattern, hbit]

theorem segmentTable_masked (stkpos : Vector (BitVec 4) 8) (segmask : Word) (glyphs : List (List Stroke)) :
    ((segmentTable stkpos segmask glyphs).all fun e => decide (e &&& segmask = segmask)) = true := by
  simp [segmentTable, segmentPattern_and_segmask]

/-- A write to the buffer or to the select masks keeps the invariant. -/
theorem State.Inv.storeElement {s : State} (h : s.Inv) {sp : Space} (hsp : sp ≠ .segrom) (i : Nat) (v : Word) :
    (s.storeElement sp i v).Inv := by
  obtain ⟨⟨hlegal, hwf, hcursor⟩, hresting, hmasked, hpending⟩ := h
  have hkept : (s.storeElement sp i v).TableMasked := by
    cases sp with
    | segrom => exact absurd rfl hsp
    | selrom | buf => exact hmasked
  exact ⟨⟨hlegal, Memory.wf_storeElement s sp i v s.cfg hwf, hcursor⟩, hresting, hkept, hpending⟩

theorem State.Inv.built {s : State} (h : s.Inv) : s.built.Inv := by
  obtain ⟨⟨hlegal, hwf, hcursor⟩, hresting, _, hpending⟩ := h
  have hlen : (segmentTable s.stkpos (orAll s.mem.selrom) s.cfg.glyph).length = (s.mem.space .segrom).length := by
    rw [segmentTable_length, (Memory.wf_iff s.mem s.cfg).1 hwf .segrom]
    rfl
  exact ⟨⟨hlegal, Memory.wf_withSpace s.mem .segrom _ s.cfg hwf hlen, hcursor⟩, hresting,
    segmentTable_masked s.stkpos (orAll s.mem.selrom) s.cfg.glyph, hpending⟩

theorem State.Inv.refreshed {s : State} (h : s.Inv) (word : Word) : (s.refreshed word).Inv := by
  obtain ⟨⟨hlegal, hwf, hcursor⟩, ⟨_, _, _, hsclk, _⟩, hmasked, _⟩ := h
  have hwires := Wires.replay_tickTrace hsclk word
  exact ⟨⟨hlegal, hwf, Nat.mod_lt _ (Config.n_pos_of_legal hlegal)⟩,
    ⟨rfl, rfl, rfl, congrArg Wires.sclk hwires, congrArg Wires.latch hwires⟩, hmasked, nofun⟩

theorem State.Inv.counted {s : State} (h : s.Inv) : s.counted.Inv := by
  obtain hrun | hrun := Bool.eq_false_or_eq_true s.run
  · obtain ⟨hshaped, hresting, hmasked, _⟩ := h
    rw [State.counted_of_run hrun]
    exact ⟨hshaped, hresting, hmasked, fun _ => hrun⟩
  · rw [State.counted_of_stopped hrun]
    exact h

/-- Every operation that completes keeps the invariant. -/
theorem exec_inv {i : Instr} {s t : State} (hinv : s.Inv) (h : exec i s = .next t) : t.Inv := by
  cases i with
  | wrbuf p w =>
    obtain ⟨_, _, rfl⟩ := exec_wrbuf_next.1 h
    exact hinv.storeElement (by decide) p w
  | rdseg d =>
    obtain ⟨_, e, _, rfl⟩ := exec_rdseg_next.1 h
    exact hinv
  | di | ei | qrate =>
    cases h
    exact hinv
  | start =>
    obtain ⟨_, rfl⟩ := exec_start_next.1 h
    obtain ⟨hshaped, hresting, hmasked, _⟩ := hinv
    exact ⟨hshaped, hresting, hmasked, nofun⟩
  | stop =>
    cases h
    obtain ⟨hshaped, hresting, hmasked, _⟩ := hinv
    exact ⟨hshaped, hresting, hmasked, nofun⟩
  | cfgsel p m =>
    obtain ⟨_, _, _, rfl⟩ := exec_cfgsel_next.1 h
    exact hinv.storeElement (by decide) p m
  | cfgstk sel k =>
    obtain ⟨_, _, rfl⟩ := exec_cfgstk_next.1 h
    exact hinv
  | build =>
    obtain ⟨_, rfl⟩ := exec_build_next.1 h
    exact hinv.built
  | tick =>
    obtain ⟨_, rfl⟩ | ⟨_, m, e, _, _, rfl⟩ := exec_tick_next.1 h
    · exact hinv
    · exact hinv.refreshed _
  | tclk =>
    obtain rfl := exec_tclk_next.1 h
    exact hinv.counted

theorem exec_cfg {i : Instr} {s t : State} (h : exec i s = .next t) : t.cfg = s.cfg := by
  obtain ⟨_, _, _, _, _, _, _, _, _, _, hcfg, _⟩ := Proofs.onlyTheOwnerWrites i s t h
  exact hcfg

theorem exec_inputs {i : Instr} {s t : State} (h : exec i s = .next t) : t.inputs = s.inputs := by
  obtain ⟨_, _, _, _, _, _, _, _, _, _, _, hinputs⟩ := Proofs.onlyTheOwnerWrites i s t h
  exact hinputs

/-! ## What a run keeps -/

/-- All that a step can do: rest, take an input that is turned away, or take one whose operation completes. -/
theorem step_next_cases {s t : State} (h : step s = .next t) :
    (s.inputs = [] ∧ t = s) ∨ ∃ x rest, s.inputs = x :: rest ∧
      (t = s.takeInput x rest ∨ ∃ i, decodeInput x = .ok i ∧ exec i (s.takeInput x rest) = .next t) := by
  cases hin : s.inputs with
  | nil =>
    cases (step_nil hin).symm.trans h
    exact .inl ⟨rfl, rfl⟩
  | cons x rest => exact .inr ⟨x, rest, rfl, turn_next_cases ((step_cons hin).symm.trans h)⟩

/-- A step takes one input, if there is one. -/
theorem step_inputs {s t : State} (h : step s = .next t) : t.inputs = s.inputs.tail := by
  obtain ⟨hin, rfl⟩ | ⟨x, rest, hin, rfl | ⟨i, _, hexec⟩⟩ := step_next_cases h
  · simp [hin]
  · simp [hin]
  · simp [exec_inputs hexec, hin]

/-- What taking an input keeps, and every allowed operation keeps, a step with an allowed input keeps. -/
theorem step_keeps {P : State → Prop} {allowed : Instr → Prop}
    (htake : ∀ u x rest, P u → P (u.takeInput x rest))
    (hexec : ∀ i u v, allowed i → P u → exec i u = .next v → P v) {s t : State} (hs : P s)
    (hallowed : ∀ x ∈ s.inputs.take 1, ∀ i, decodeInput x = .ok i → allowed i) (h : step s = .next t) : P t := by
  obtain ⟨_, rfl⟩ | ⟨x, rest, hin, rfl | ⟨i, hdec, hi⟩⟩ := step_next_cases h
  · exact hs
  · exact htake s x rest hs
  · exact hexec i _ t (hallowed x (by simp [hin]) i hdec) (htake s x rest hs) hi

/-- The inputs of the steps after the first are among those of all the steps. -/
theorem mem_take_of_step {s t : State} (h : step s = .next t) {k : Nat} {x : Input} (hx : x ∈ t.inputs.take k) :
    x ∈ s.inputs.take (k + 1) := by
  rw [step_inputs h] at hx
  cases hin : s.inputs with
  | nil => simp [hin] at hx
  | cons y rest =>
    rw [hin] at hx
    exact List.mem_cons_of_mem y hx

/-- So does a run of allowed inputs. -/
theorem steps_keeps {P : State → Prop} {allowed : Instr → Prop}
    (htake : ∀ u x rest, P u → P (u.takeInput x rest))
    (hexec : ∀ i u v, allowed i → P u → exec i u = .next v → P v) {k : Nat} {s t : State} (hs : P s)
    (hallowed : ∀ x ∈ s.inputs.take k, ∀ i, decodeInput x = .ok i → allowed i) (h : steps k s = .next t) : P t := by
  induction k generalizing s with
  | zero =>
    cases h
    exact hs
  | succ k ih =>
    obtain ⟨u, hstep, hrest⟩ := andThen_next.1 h
    have hu : P u := step_keeps htake hexec hs
      (fun x hx => hallowed x (List.take_subset_take_left _ (Nat.succ_le_succ (Nat.zero_le k)) hx)) hstep
    exact ih hu (fun x hx => hallowed x (mem_take_of_step hstep hx)) hrest

theorem step_inv {s t : State} (hinv : s.Inv) (h : step s = .next t) : t.Inv := by
  obtain ⟨_, rfl⟩ | ⟨x, rest, _, rfl | ⟨i, _, hexec⟩⟩ := step_next_cases h
  · exact hinv
  · exact hinv
  · exact exec_inv (s := s.takeInput x rest) hinv hexec

theorem step_cfg {s t : State} (h : step s = .next t) : t.cfg = s.cfg := by
  obtain ⟨_, rfl⟩ | ⟨x, rest, _, rfl | ⟨i, _, hexec⟩⟩ := step_next_cases h
  · rfl
  · rfl
  · exact (exec_cfg hexec).trans rfl

/-! ## Construction (R46) -/

theorem constructed_inv {c : Config} (hc : c.legal = true) (d : ResetDraw) : (State.constructed c d).Inv :=
  ⟨⟨hc, constructed_mem_wf c d, Config.n_pos_of_legal hc⟩, ⟨rfl, rfl, rfl, rfl, rfl⟩,
    segmentTable_masked c.wiring (orAll c.sel) c.glyph, nofun⟩

theorem reference_legal : Config.reference.legal = true := by decide

/-! ## The critical section (R72, R281) and the armed timer (R128) -/

/-- Under the mask, with the scan as it stood in an earlier state. -/
structure State.MaskedSince (s u : State) : Prop where
  mask_eq : u.mask = true
  trace_eq : u.trace = s.trace
  wires_eq : u.wires = s.wires
  cursor_eq : u.cursor = s.cursor
  word_eq : u.word = s.word
  insvc_eq : u.insvc = s.insvc

theorem State.MaskedSince.takeInput {s u : State} (h : s.MaskedSince u) (x : Input) (rest : List Input) :
    s.MaskedSince (u.takeInput x rest) :=
  ⟨h.mask_eq, h.trace_eq, h.wires_eq, h.cursor_eq, h.word_eq, h.insvc_eq⟩

theorem exec_maskedSince {i : Instr} {s u v : State} (hi : i ≠ .ei) (hu : s.MaskedSince u) (h : exec i u = .next v) :
    s.MaskedSince v := by
  obtain ⟨hmask, htrace, hwires, hcursor, hword, hinsvc⟩ := hu
  by_cases htick : i = .tick
  · subst htick
    cases (exec_tick_of_not_irq (State.irq_of_mask hmask)).symm.trans h
    exact ⟨hmask, htrace, hwires, hcursor, hword, hinsvc⟩
  · obtain ⟨_, _, _, _, hscan, _, hkept, _⟩ := Proofs.onlyTheOwnerWrites i u v h
    obtain ⟨hcursor', hword', _, _, hinsvc', hwires', htrace'⟩ := hscan htick
    have hmask' : v.mask = true := by
      by_cases hdi : i = .di
      · subst hdi
        cases h
        rfl
      · exact (hkept hdi hi).trans hmask
    exact ⟨hmask', htrace'.trans htrace, hwires'.trans hwires, hcursor'.trans hcursor, hword'.trans hword,
      hinsvc'.trans hinsvc⟩

/-- Armed, with the tables and the wiring as they stood in an earlier state. -/
structure State.ArmedSince (s u : State) : Prop where
  run_eq : u.run = true
  selrom_eq : u.mem.selrom = s.mem.selrom
  segrom_eq : u.mem.segrom = s.mem.segrom
  stkpos_eq : u.stkpos = s.stkpos
  segmask_eq : u.segmask = s.segmask
  dpbit_eq : u.dpbit = s.dpbit

theorem State.ArmedSince.takeInput {s u : State} (h : s.ArmedSince u) (x : Input) (rest : List Input) :
    s.ArmedSince (u.takeInput x rest) :=
  ⟨h.run_eq, h.selrom_eq, h.segrom_eq, h.stkpos_eq, h.segmask_eq, h.dpbit_eq⟩

theorem exec_armedSince {i : Instr} {s u v : State} (hi : i ≠ .stop) (hu : s.ArmedSince u) (h : exec i u = .next v) :
    s.ArmedSince v := by
  obtain ⟨hrun, hsel, hseg, hstk, hmask, hpoint⟩ := hu
  have hcfgsel (p : Nat) (m : Word) : i ≠ .cfgsel p m := by
    rintro rfl
    cases (exec_cfgsel_of_run hrun p m).symm.trans h
  have hcfgstk (sel k : Nat) : i ≠ .cfgstk sel k := by
    rintro rfl
    cases (exec_cfgstk_of_run hrun sel k).symm.trans h
  have hbuild : i ≠ .build := by
    rintro rfl
    cases (exec_build_of_run hrun).symm.trans h
  have hstart : i ≠ .start := by
    rintro rfl
    cases (exec_start_of_run hrun).symm.trans h
  obtain ⟨hsel', hstk', hbuilt, _, _, hrun', _⟩ := Proofs.onlyTheOwnerWrites i u v h
  obtain ⟨hseg', hmask', hpoint'⟩ := hbuilt hbuild
  exact ⟨(hrun' hstart hi).trans hrun, (hsel' hcfgsel).trans hsel, hseg'.trans hseg, (hstk' hcfgstk).trans hstk,
    hmask'.trans hmask, hpoint'.trans hpoint⟩

/-! ## The line trace accounts for lines and chain (R11) -/

/-- The trace has been extended by events that explain the lines and the chain. -/
def State.EmitsTo (s t : State) : Prop := ∃ es, t.trace = s.trace ++ es ∧ t.wires = s.wires.replay es

theorem State.EmitsTo.refl (s : State) : s.EmitsTo s := ⟨[], by simp, rfl⟩

theorem State.EmitsTo.trans {s t u : State} (hst : s.EmitsTo t) (htu : t.EmitsTo u) : s.EmitsTo u := by
  obtain ⟨es, htrace, hwires⟩ := hst
  obtain ⟨fs, htrace', hwires'⟩ := htu
  exact ⟨es ++ fs, by rw [htrace', htrace, List.append_assoc], by rw [hwires', hwires, Wires.replay_append]⟩

theorem exec_emitsTo {i : Instr} {s t : State} (h : exec i s = .next t) : s.EmitsTo t := by
  by_cases htick : i = .tick
  · subst htick
    obtain ⟨_, rfl⟩ | ⟨_, m, e, _, _, rfl⟩ := exec_tick_next.1 h
    · exact .refl t
    · exact ⟨tickTrace (m ||| ~~~e), rfl, rfl⟩
  · obtain ⟨_, _, _, _, hscan, _⟩ := Proofs.onlyTheOwnerWrites i s t h
    obtain ⟨_, _, _, _, _, hwires, htrace⟩ := hscan htick
    exact ⟨[], by simp [htrace], hwires⟩

/-! ## The last write to a buffer entry (R70 c) -/

/-- The word that an input writes to a buffer entry, if it does. -/
def bufferWrite (p : Nat) (x : Input) : Option Word :=
  match decodeInput x with
  | .ok (.wrbuf j w) => if j = p then some w else none
  | _ => none

theorem bufferWrite_of_wrbuf {p : Nat} {w : Word} {x : Input} (h : decodeInput x = .ok (.wrbuf p w)) :
    bufferWrite p x = some w := by
  simp [bufferWrite, h]

theorem bufferWrite_of_other {p : Nat} {x : Input} (h : ∀ w, decodeInput x ≠ .ok (.wrbuf p w)) :
    bufferWrite p x = none := by
  unfold bufferWrite
  split
  next j w hdec =>
    have hj : j ≠ p := by
      rintro rfl
      exact h w hdec
    rw [if_neg hj]
  next => rfl

/-- No operation but a `WRBUF` of it changes an entry of the buffer (R20). -/
theorem exec_memRead_buf_other {i : Instr} {s t : State} {p : Nat} (hi : ∀ w, i ≠ .wrbuf p w) (h : exec i s = .next t) :
    t.memRead .buf p = s.memRead .buf p := by
  by_cases hwr : ∃ j w, i = .wrbuf j w
  · obtain ⟨j, w, rfl⟩ := hwr
    obtain ⟨_, _, rfl⟩ := exec_wrbuf_next.1 h
    have hj : p ≠ j := by
      rintro rfl
      exact hi w rfl
    exact State.memRead_storeElement_other s .buf .buf j p w (.inr hj)
  · obtain ⟨_, _, _, hbuf, _⟩ := Proofs.onlyTheOwnerWrites i s t h
    simp [State.memRead, Memory.space, hbuf fun j w heq => hwr ⟨j, w, heq⟩]

/-- One step writes an entry of the buffer with the word of a `WRBUF` of that entry, and otherwise leaves it. -/
theorem step_memRead_buf {s t : State} {x : Input} {rest : List Input} {p : Nat} (hwf : s.mem.wf s.cfg = true)
    (hp : p < s.cfg.n) (hin : s.inputs = x :: rest) (h : step s = .next t) :
    t.memRead .buf p = (bufferWrite p x).or (s.memRead .buf p) := by
  by_cases hx : ∃ w, decodeInput x = .ok (.wrbuf p w)
  · obtain ⟨w, hdec⟩ := hx
    cases (step_of_exec_next hin hdec (exec_wrbuf_of_lt (s := s.takeInput x rest) hwf hp w)).symm.trans h
    have hlen : p < (s.mem.space .buf).length := by rwa [(Memory.wf_iff s.mem s.cfg).1 hwf .buf]
    rw [bufferWrite_of_wrbuf hdec]
    exact State.memRead_storeElement_same (s.takeInput x rest) .buf p w hlen
  · have hother : ∀ w, decodeInput x ≠ .ok (.wrbuf p w) := not_exists.1 hx
    rw [bufferWrite_of_other hother, Option.none_or]
    obtain ⟨hnil, _⟩ | ⟨y, rest', hin', rfl | ⟨i, hdec, hexec⟩⟩ := step_next_cases h
    · simp [hin] at hnil
    · rfl
    · cases hin.symm.trans hin'
      refine exec_memRead_buf_other (s := s.takeInput x rest) (fun w hi => hother w ?_) hexec
      rw [hdec, hi]

/-- The last of some words after a first one, or what stood before. -/
theorem getLast?_filterMap_cons_or {α β : Type} (f : α → Option β) (x : α) (xs : List α) (b : Option β) :
    (((x :: xs).filterMap f).getLast?).or b = ((xs.filterMap f).getLast?).or ((f x).or b) := by
  cases hx : f x with
  | none => simp [hx]
  | some y => cases hl : (xs.filterMap f).getLast? <;> simp [hx, List.getLast?_cons, hl]

theorem steps_memRead_buf {k : Nat} {s t : State} {p : Nat} (hinv : s.Inv) (hp : p < s.cfg.n)
    (h : steps k s = .next t) :
    t.memRead .buf p = (((s.inputs.take k).filterMap (bufferWrite p)).getLast?).or (s.memRead .buf p) := by
  induction k generalizing s with
  | zero =>
    cases h
    simp
  | succ k ih =>
    obtain ⟨u, hstep, hrest⟩ := andThen_next.1 h
    have hu := ih (step_inv hinv hstep) (by rwa [step_cfg hstep]) hrest
    rw [step_inputs hstep] at hu
    cases hin : s.inputs with
    | nil =>
      cases (step_nil hin).symm.trans hstep
      simpa [hin] using hu
    | cons x rest =>
      obtain ⟨⟨_, hwf, _⟩, _⟩ := hinv
      rw [hin, List.tail_cons, step_memRead_buf hwf hp hin hstep] at hu
      rw [hu, List.take_succ_cons, getLast?_filterMap_cons_or]

end Sys2Proof.Machine

namespace Sys2Proof.Proofs

open Sys2Proof.Machine

/-- Settles O10: a step takes at most one input, of which the invariant does not speak, and every operation keeps it
(`exec_inv`). -/
theorem stepKeepsInvariant : Obligations.StepKeepsInvariant :=
  fun _ _ hinv h => ⟨step_inv hinv h, step_cfg h⟩

/-- Settles O12: construction derives the tables from the masks it installs. -/
theorem constructionHasInvariant : Obligations.ConstructionHasInvariant :=
  fun c d hc => ⟨constructed_inv hc d, constructed_tablesCurrent c d⟩

/-- Settles O11: the reference configuration is legal. -/
theorem resetHasInvariant : Obligations.ResetHasInvariant := constructed_inv reference_legal resetDraw

/-- Settles O14: the two checks of construction, in their order. -/
theorem constructionRefusals : Obligations.ConstructionRefusals :=
  fun _ _ => ⟨fun hn => if_pos hn, fun hn hpins => by simp [State.construct, hn, hpins]⟩

/-- Settles O43: what is masked stays masked without an `EI`, and with it the scan stands still. -/
theorem criticalSectionExcludesTicks : Obligations.CriticalSectionExcludesTicks := by
  intro k s t hmask hinputs h
  have hkept : s.MaskedSince t :=
    steps_keeps (allowed := fun i => i ≠ .ei) (fun _ x rest hu => hu.takeInput x rest)
      (fun _ _ _ hi hu hexec => exec_maskedSince hi hu hexec) ⟨hmask, rfl, rfl, rfl, rfl, rfl⟩
      (fun x hx i hdec hi => hinputs x hx (hi ▸ hdec)) h
  exact ⟨hkept.mask_eq, hkept.trace_eq, hkept.wires_eq, hkept.cursor_eq, hkept.word_eq, hkept.insvc_eq⟩

/-- Settles O47: without a `STOP` the timer stays armed, and every operation that could change a table is refused. -/
theorem tablesFrozenWhileRunning : Obligations.TablesFrozenWhileRunning := by
  intro k s t hrun hinputs h
  have hkept : s.ArmedSince t :=
    steps_keeps (allowed := fun i => i ≠ .stop) (fun _ x rest hu => hu.takeInput x rest)
      (fun _ _ _ hi hu hexec => exec_armedSince hi hu hexec) ⟨hrun, rfl, rfl, rfl, rfl, rfl⟩
      (fun x hx i hdec hi => hinputs x hx (hi ▸ hdec)) h
  exact ⟨hkept.run_eq, hkept.selrom_eq, hkept.segrom_eq, hkept.stkpos_eq, hkept.segmask_eq, hkept.dpbit_eq⟩

/-- Settles O36: only a `TICK` emits, and its lines and chain are the replay of what it emits. -/
theorem chainFollowsTheLineTrace : Obligations.ChainFollowsTheLineTrace := by
  intro k s t h
  exact steps_keeps (P := s.EmitsTo) (allowed := fun _ => True) (fun _ _ _ hu => hu)
    (fun _ _ _ _ hu hexec => hu.trans (exec_emitsTo hexec)) (.refl s) (fun _ _ _ _ => trivial) h

/-- Settles O46, step by step: a `WRBUF` in range writes its entry, and no other input touches it. -/
theorem bufferHoldsTheLastWrite : Obligations.BufferHoldsTheLastWrite := by
  intro k p s t hinv hp h
  rw [steps_memRead_buf hinv hp h]
  rfl

/-- Settles O8: whatever the next input is, a step answers next (`step_next`). -/
theorem executionNeverStops : Obligations.ExecutionNeverStops := steps_next

end Sys2Proof.Proofs
end

section
/-! One step and its input, the engine phase by phase, the timer and the registers (20_memory.md R70, R71; 42_scan_refresh.md
R180 to R191; 43_timer_control.md; 10_state.md R30). -/

namespace Sys2Proof.Machine

/-! ## A refused input (R12, R241) -/

/-- Under the invariant only a command is refused: a `TICK` meets no index outside its space, and a count always completes. -/
theorem exec_refused_isCommand {s : State} {x : Input} {i : Instr} {r : Refusal} (hshaped : s.Shaped)
    (hdec : decodeInput x = .ok i) (h : exec i s = .refused r) : ∃ w, x = .command w := by
  cases x with
  | command w => exact ⟨w, rfl⟩
  | tick =>
    cases hdec
    obtain ⟨t, ht⟩ := exec_tick_of_shaped hshaped
    cases ht.symm.trans h
  | tclk =>
    cases hdec
    cases (exec_tclk s).symm.trans h

theorem step_of_headRefusal {s : State} {r : Refusal} (hshaped : s.Shaped) (h : s.headRefusal = some r) :
    step s = .next { s with inputs := s.inputs.tail, resp := none } := by
  cases hin : s.inputs with
  | nil => simp [State.headRefusal, hin] at h
  | cons x rest =>
    cases hdec : decodeInput x with
    | error e =>
      cases x with
      | command w => exact step_of_decode_error hdec hin
      | tick | tclk => cases hdec
    | ok i =>
      cases hexec : exec i (s.takeInput x rest) with
      | next t => simp [State.headRefusal, hin, hdec, hexec] at h
      | fault f => cases f
      | refused r' =>
        obtain ⟨w, rfl⟩ := exec_refused_isCommand (s := s.takeInput x rest) hshaped hdec hexec
        exact step_of_exec_refused hin hdec hexec

/-! ## The response port (R106) -/

/-- Of the commands only `RDSEG` and `QRATE` leave something at the port. -/
theorem step_resp_of_silent {s t : State} {w : HostWord} {rest : List Input} (hin : s.inputs = .command w :: rest)
    (hrdseg : ∀ d, decode w ≠ .ok (.rdseg d)) (hqrate : decode w ≠ .ok .qrate) (h : step s = .next t) : t.resp = none := by
  obtain ⟨hnil, _⟩ | ⟨y, rest', hin', rfl | ⟨i, hdec, hexec⟩⟩ := step_next_cases h
  · simp [hin] at hnil
  · cases hin.symm.trans hin'
    rfl
  · cases hin.symm.trans hin'
    obtain ⟨_, _, _, _, _, _, _, _, _, hresp, _⟩ := Proofs.onlyTheOwnerWrites _ _ _ hexec
    exact hresp (fun d hi => hrdseg d (hi ▸ hdec)) (fun hi => hqrate (hi ▸ hdec))

/-! ## The start condition (R102) -/

theorem State.irq_iff (s : State) :
    s.irq = true ↔ s.run = true ∧ s.mask = false ∧ s.tif = true ∧ s.insvc = false := by
  simp [State.irq, and_assoc]

/-! ## The line trace of a `TICK`, event by event (R185, R191) -/

theorem bitTrace_getElem? (word : Word) {n k : Nat} (hk : k < n) :
    (bitTrace word n)[3 * k]? = some ⟨.data, word.getLsbD (n - 1 - k)⟩ ∧
      (bitTrace word n)[3 * k + 1]? = some ⟨.sclk, true⟩ ∧ (bitTrace word n)[3 * k + 2]? = some ⟨.sclk, false⟩ := by
  induction n generalizing k with
  | zero => omega
  | succ n ih =>
    cases k with
    | zero => simp [bitTrace]
    | succ k =>
      have hbit : n + 1 - 1 - (k + 1) = n - 1 - k := by omega
      rw [hbit]
      exact ih (Nat.lt_of_succ_lt_succ hk)

/-- An event among the sixteen transfers (R191). -/
theorem tickTrace_getElem?_succ (word : Word) {i : Nat} (hi : i < 48) :
    (tickTrace word)[i + 1]? = (bitTrace word 16)[i]? := by
  have hlen : i < (bitTrace word 16).length := by simpa using hi
  rw [tickTrace, List.getElem?_cons_succ, List.getElem?_append_left hlen]

/-- An event of the latch pulse (R191). -/
theorem tickTrace_getElem?_pulse (word : Word) :
    (tickTrace word)[49]? = some ⟨.latch, true⟩ ∧ (tickTrace word)[50]? = some ⟨.latch, false⟩ := by
  simp [tickTrace]

/-! ## The engine phase by phase (R23, R25, R71) -/

theorem engineMoves_add (j k : Nat) (s : State) :
    engineMoves (j + k) s = andThen (engineMoves j s) (engineMoves k) := by
  induction j generalizing s with
  | zero => simp [engineMoves, andThen]
  | succ j ih =>
    rw [Nat.succ_add, engineMoves, engineMoves]
    cases engineMove s with
    | next t => exact ih t
    | fault f => rfl
    | refused r => rfl

/-- The moves of the shift phase are the bits of step 4 (R184). -/
theorem engineMoves_shift {k : Nat} {s : State} (hk : k < 16) (hphase : s.phase = .shift)
    (hbits : s.bitcnt = BitVec.ofNat 5 (k + 1)) : engineMoves (k + 1) s = .next (stepShift (k + 1) s) := by
  have hleft : s.bitcnt.toNat - 1 = k := by
    rw [hbits, BitVec.toNat_ofNat]
    omega
  rw [engineMoves, engineMove, hphase]
  simp only [hleft]
  induction k generalizing s with
  | zero => rfl
  | succ k ih =>
    have hleft' : (stepShiftOne s (k + 1)).bitcnt.toNat - 1 = k := by
      rw [stepShiftOne_bitcnt, BitVec.toNat_ofNat]
      omega
    rw [engineMoves, engineMove, stepShiftOne_phase, if_neg (Nat.succ_ne_zero k)]
    simp only [hleft']
    exact ih (by omega) rfl rfl hleft'

/-- With the start condition and both entries in place, twenty-two moves from `IDLE` are one invocation (R180). -/
theorem engineMoves_invocation {s u : State} (hphase : s.phase = .idle) (hirq : s.irq = true)
    (hu : stepCompose (stepLatchLow (stepRearm s.takeInterrupt)) = some u) :
    engineMoves movesPerInvocation s = invocation s := by
  have hentry : engineMoves 4 s = .next u := by
    simp [engineMoves, engineMove, hphase, hirq, hu]
  have hbits : engineMoves 16 u = .next (stepShift 16 u) := by
    obtain ⟨_, _, _, _, rfl⟩ := stepCompose_some.1 hu
    exact engineMoves_shift (by omega) rfl rfl
  have hend : engineMoves 2 (stepShift 16 u) = .next (stepAdvance (stepLatchPulse (stepShift 16 u))) := by
    rw [stepShift_succ_eq]
    rfl
  have hmoves : movesPerInvocation = 4 + 16 + 2 := rfl
  rw [invocation_next.2 ⟨u, hu, rfl⟩, hmoves, engineMoves_add, engineMoves_add, hentry, andThen, hbits, andThen, hend]

/-- A move that neither reads nor writes what a count writes commutes with it (R71). -/
theorem counted_comm {f : State → State} {s : State} (hrun : (f s).run = s.run) (htcnt : (f s).tcnt = s.tcnt)
    (htif : (f s).tif = s.tif)
    (hcomm : ∀ tcnt tif, f { s with tcnt := tcnt, tif := tif } = { f s with tcnt := tcnt, tif := tif }) :
    f s.counted = (f s).counted := by
  obtain hr | hr := Bool.eq_false_or_eq_true s.run
  · rw [State.counted_of_run hr, State.counted_of_run (hrun.trans hr), hcomm, htcnt, htif]
  · rw [State.counted_of_stopped hr, State.counted_of_stopped (hrun.trans hr)]

@[simp] theorem State.counted_phase (s : State) : s.counted.phase = s.phase := by
  unfold State.counted
  split <;> rfl

@[simp] theorem State.counted_bitcnt (s : State) : s.counted.bitcnt = s.bitcnt := by
  unfold State.counted
  split <;> rfl

theorem stepShiftOne_counted (s : State) (k : Nat) : stepShiftOne s.counted k = (stepShiftOne s k).counted :=
  counted_comm (f := fun u => stepShiftOne u k) (stepShiftOne_run s k) (stepShiftOne_tcnt s k) (stepShiftOne_tif s k)
    fun _ _ => by simp [stepShiftOne]

/-- A count changes neither the cursor nor the entries that step 3 reads. -/
theorem stepCompose_counted {s u : State} (h : stepCompose s = some u) : stepCompose s.counted = some u.counted := by
  obtain ⟨m, e, hm, he, rfl⟩ := stepCompose_some.1 h
  have hmem : s.counted.mem = s.mem ∧ s.counted.cursor = s.cursor := by
    unfold State.counted
    split <;> exact ⟨rfl, rfl⟩
  refine stepCompose_some.2 ⟨m, e, ?_, ?_, ?_⟩
  · rw [State.memRead, hmem.1, hmem.2]
    exact hm
  · rw [State.memRead, hmem.1, hmem.2]
    exact he
  · exact (counted_comm (f := fun v => { v with word := m ||| ~~~e, bitcnt := 16#5, phase := .shift }) rfl rfl rfl
      fun _ _ => rfl).symm

/-- Every move after the re-arm commutes with a count. -/
theorem engineMove_counted {s t : State} (hidle : s.phase ≠ .idle) (hrearm : s.phase ≠ .rearm)
    (h : engineMove s = .next t) : engineMove s.counted = .next t.counted := by
  unfold engineMove at h ⊢
  rw [State.counted_phase]
  cases hphase : s.phase with
  | idle => exact absurd hphase hidle
  | rearm => exact absurd hphase hrearm
  | latchLow =>
    simp only [hphase] at h ⊢
    cases h
    exact congrArg _ (counted_comm (f := stepLatchLow) rfl rfl rfl fun _ _ => rfl)
  | compose =>
    simp only [hphase] at h ⊢
    cases hcompose : stepCompose s with
    | none => simp [hcompose] at h
    | some u =>
      simp only [hcompose] at h
      cases h
      simp only [stepCompose_counted hcompose]
  | shift =>
    simp only [hphase] at h ⊢
    cases h
    rw [State.counted_bitcnt]
    exact congrArg _ (stepShiftOne_counted s (s.bitcnt.toNat - 1))
  | latchPulse =>
    simp only [hphase] at h ⊢
    cases h
    exact congrArg _ (counted_comm (f := stepLatchPulse) rfl rfl rfl fun _ _ => rfl)
  | advance =>
    simp only [hphase] at h ⊢
    cases h
    exact congrArg _ (counted_comm (f := stepAdvance) rfl rfl rfl fun _ _ => rfl)

/-! ## Counts in sequence, and the critical section (R211, R212, R249) -/

theorem execAll_append (is js : List Instr) (s : State) :
    execAll (is ++ js) s = andThen (execAll is s) (execAll js) := by
  induction is generalizing s with
  | nil => rfl
  | cons i is ih =>
    simp only [List.cons_append, execAll]
    cases exec i s with
    | next t => exact ih t
    | fault f => rfl
    | refused r => rfl

/-- `DI`, a whole period of counts or more, `EI`: whatever the count was, one expiry is pending (R211). -/
theorem execAll_critical_section {s : State} (hrun : s.run = true) {j : Nat} (hj : 256 ≤ j) :
    execAll (Instr.di :: (List.replicate j Instr.tclk ++ [Instr.ei])) s =
      .next { s with mask := false, tcnt := s.tcnt + BitVec.ofNat 8 j, tif := true } := by
  have hexpired : 256 ≤ s.tcnt.toNat + j := by omega
  have hdi : exec .di s = .next { s with mask := true } := rfl
  rw [execAll, hdi, andThen, execAll_append, execAll_tclk_of_run (s := { s with mask := true }) hrun, andThen]
  simp [execAll, exec, execEi, andThen, hexpired]

/-- Of two `TICK`s offered one after the other the first takes the expiry, so that the second does not occur (R180). -/
theorem execAll_tick_tick {s : State} (hshaped : s.Shaped) (hirq : s.irq = true) :
    ∃ word, execAll [.tick, .tick] s = .next (s.refreshed word) := by
  obtain ⟨t, ht⟩ := exec_tick_of_shaped hshaped
  obtain ⟨m, e, _, _, rfl⟩ := (exec_tick_next_of_irq hirq).1 ht
  have hnot : (s.refreshed (m ||| ~~~e)).irq = false := by simp [State.irq, State.refreshed]
  exact ⟨m ||| ~~~e, by simp [execAll, ht, andThen, exec_tick_of_not_irq hnot]⟩

/-! ## The rate (R217, R218) -/

theorem rateDivisor_anti (c : Config) {r₁ r₂ : BitVec 8} (h : r₁.toNat ≤ r₂.toNat) :
    rateDivisor { c with reload := r₂ } ≤ rateDivisor { c with reload := r₁ } :=
  Nat.mul_le_mul_left _ (Nat.sub_le_sub_left h wrap)

theorem rateResponse_toNat {c : Config} (hc : c.legal = true) (hfits : c.fClock / rateDivisor c < 2 ^ 32) :
    (rateResponse c).toNat = c.fClock / rateDivisor c := by
  rw [rateResponse_of_fits hc hfits, BitVec.toNat_ofNat, Nat.mod_eq_of_lt hfits]

/-! ## The register views (R30) -/

/-- Two flags in one register, the second in bit 0. -/
theorem flags_append (a b : Bool) :
    (BitVec.ofBool a ++ BitVec.ofBool b).getLsbD 0 = b ∧ (BitVec.ofBool a ++ BitVec.ofBool b).getLsbD 1 = a ∧
      (BitVec.ofBool a ++ BitVec.ofBool b).toNat = b.toNat + 2 * a.toNat := by
  revert a b
  decide

/-! ## Bits of a built pattern (R90) -/

theorem getLsbD_bitMask (k : BitVec 4) (i : Nat) : (bitMask k).getLsbD i = true ↔ k.toNat = i := by
  have hk : k.toNat < 16 := k.isLt
  simp [bitMask, BitVec.getLsbD_twoPow, hk]

/-- A bit of some strokes is the position of one of them. -/
theorem getLsbD_strokeBits_iff (stkpos : Vector (BitVec 4) 8) (g : List Stroke) (i : Nat) :
    (strokeBits stkpos g).getLsbD i = true ↔ ∃ x ∈ g, (strokePos stkpos x).toNat = i := by
  simp [getLsbD_strokeBits, getLsbD_bitMask]

theorem getLsbD_strokeAll_iff (stkpos : Vector (BitVec 4) 8) (i : Nat) :
    (strokeAll stkpos).getLsbD i = true ↔ ∃ x : Stroke, (strokePos stkpos x).toNat = i := by
  simp [strokeAll, getLsbD_strokeBits_iff, stroke_mem_all]

/-- A pattern bit by bit: a select bit, or the bit of a stroke that is not lit (R90). -/
theorem getLsbD_segmentPattern (stkpos : Vector (BitVec 4) 8) (segmask : Word) (g : List Stroke) {i : Nat} (hi : i < 16) :
    (segmentPattern stkpos segmask g).getLsbD i = true ↔ segmask.getLsbD i = true ∨
      ((∃ x : Stroke, (strokePos stkpos x).toNat = i) ∧ ∀ x ∈ g, (strokePos stkpos x).toNat ≠ i) := by
  have hlit : (strokeBits stkpos g).getLsbD i = false ↔ ∀ x ∈ g, (strokePos stkpos x).toNat ≠ i := by
    rw [← Bool.not_eq_true, getLsbD_strokeBits_iff]
    simp
  simp only [segmentPattern, BitVec.getLsbD_or, BitVec.getLsbD_and, BitVec.getLsbD_not, hi, decide_true, Bool.true_and,
    Bool.or_eq_true, Bool.and_eq_true, Bool.not_eq_true', getLsbD_strokeAll_iff, hlit]
  exact or_comm

end Sys2Proof.Machine

namespace Sys2Proof.Proofs

open Sys2Proof.Machine

/-- Settles O6: a decoded operation is well-formed, and a refused one leaves the state from which it was taken. -/
theorem stepRunsTheDecodedOperation : Obligations.StepRunsTheDecodedOperation :=
  fun _ _ _ _ hin hdec => ⟨(decodeInput_ok hdec).1, rfl, fun _ h => step_of_exec_next hin hdec h,
    fun _ h => step_of_exec_refused hin hdec h⟩

/-- Settles O7, by induction on the number of steps. -/
theorem emptyScheduleRests : Obligations.EmptyScheduleRests := fun _ hin k => steps_of_nil hin k

/-- Settles O9: under the invariant a refused input is a command, so that taking it empties the port. -/
theorem refusedOperationChangesNothing : Obligations.RefusedOperationChangesNothing :=
  fun _ _ ⟨hshaped, _⟩ h => step_of_headRefusal hshaped h

/-- Settles O45: the port is emptied when the command is taken, and no other operation fills it. -/
theorem onlyRdsegAndQrateRespond : Obligations.OnlyRdsegAndQrateRespond := by
  intro s t w rest hin h
  refine ⟨fun d e hdec hd he => ?_, fun hdec => ?_, fun hrdseg hqrate => step_resp_of_silent hin hrdseg hqrate h⟩
  · have hexec := exec_rdseg_of_memRead (s := s.takeInput (.command w) rest) hd he
    cases (step_of_exec_next hin hdec hexec).symm.trans h
    exact congrArg some (zeroExtended_eq_append e)
  · cases (step_of_exec_next (t := (s.takeInput (.command w) rest).respond (rateResponse s.cfg)) hin hdec rfl).symm.trans h
    rfl

/-- Settles O32: one invocation sends the word of the two entries at the cursor; by the invariant the engine rested, as it
does again. -/
theorem tickLatchesTheWord : Obligations.TickLatchesTheWord := by
  intro s ⟨hshaped, ⟨hinsvc, hphase, hbitcnt, hsclk, _⟩, _⟩ hirq
  obtain ⟨t, ht⟩ := exec_tick_of_shaped hshaped
  obtain ⟨m, e, hm, he, rfl⟩ := (exec_tick_next_of_irq hirq).1 ht
  refine ⟨_, m, e, hm, he, ht, ?_, Wires.replay_tickTrace hsclk (m ||| ~~~e)⟩
  simp [State.refreshed, ← hinsvc, ← hphase, ← hbitcnt]

/-- Settles O33: an invocation adds the events of its word (`invocation_next_iff`), no other operation adds any, and the
sixteen transfers are three events each. -/
theorem tickEmitsFiftyOneEvents : Obligations.TickEmitsFiftyOneEvents := by
  refine ⟨fun s t _ hirq h => ?_, fun i s t hi h => ?_, fun w => ⟨tickTrace_length w, rfl, (tickTrace_getElem?_pulse w).1,
    (tickTrace_getElem?_pulse w).2, fun k hk => ?_⟩⟩
  · obtain ⟨m, e, _, _, rfl⟩ := (exec_tick_next_of_irq hirq).1 h
    rfl
  · exact (exec_scanRests hi h).trace_eq
  · obtain ⟨hdata, hrise, hfall⟩ := bitTrace_getElem? w hk
    rw [← tickTrace_getElem?_succ w (by omega)] at hdata hrise hfall
    rw [Nat.add_comm 1, Nat.add_comm 2, Nat.add_comm 3]
    exact ⟨hdata, hrise, hfall⟩

/-- Settles O38: entry and three steps, sixteen bits, and two steps are twenty-two moves. -/
theorem fineEngineRefinesTick : Obligations.FineEngineRefinesTick := by
  intro s ⟨hshaped, ⟨_, hphase, _⟩, _⟩ hirq
  obtain ⟨t, ht⟩ := invocation_of_shaped hshaped
  obtain ⟨u, hu, _⟩ := invocation_next.1 ht
  rw [exec_tick_of_irq hirq]
  exact engineMoves_invocation hphase hirq hu

/-- Settles O39: after the re-arm no move reads or writes `TCNT` or `TIF`. -/
theorem timerCountCommutesWithEngine : Obligations.TimerCountCommutesWithEngine := by
  intro s t u hidle hrearm hmove hcount
  obtain rfl := exec_tclk_next.1 hcount
  exact ⟨t.counted, engineMove_counted hidle hrearm hmove, exec_tclk t⟩

/-- Settles O49: an invocation reads the buffer at the cursor and nowhere else. -/
theorem tickReadsOnlyTheCursorEntry : Obligations.TickReadsOnlyTheCursorEntry := by
  intro s t other _ hirq hsame h
  obtain ⟨m, e, hm, he, rfl⟩ := (exec_tick_next_of_irq hirq).1 h
  exact exec_tick_next.2 (.inr ⟨hirq, m, e, hm, hsame.trans he, rfl⟩)

/-- Settles O31: the request line is the conjunction of the four flags, and without it no `TICK` occurs. -/
theorem tickStartsOnlyWhenEnabled : Obligations.TickStartsOnlyWhenEnabled :=
  fun s => ⟨s.irq_iff, exec_tick_of_not_irq⟩

/-- Settles O25: neither operation reads the flag that it writes. -/
theorem criticalSectionFlag : Obligations.CriticalSectionFlag := fun _ => ⟨rfl, rfl, rfl⟩

/-- Settles O48: each of the three operations checks `RUN` first. -/
theorem configurationRefusedWhileRunning : Obligations.ConfigurationRefusedWhileRunning :=
  fun _ p sel k m hrun => ⟨exec_cfgsel_of_run hrun p m, exec_cfgstk_of_run hrun sel k, exec_build_of_run hrun⟩

/-- Settles O27: the response is the rate, stated or not. -/
theorem qrateAlwaysCompletes : Obligations.QrateAlwaysCompletes := fun s => ⟨rateResponse s.cfg, rfl⟩

/-- Settles O28: a larger reload constant makes the divisor smaller, so that both quotients fit when the larger does. -/
theorem rateGrowsWithReload : Obligations.RateGrowsWithReload := by
  intro c r₁ r₂ hc hle hfits
  have hc₂ : ({ c with reload := r₂ } : Config).legal = true := hc
  have hquot : c.fClock / rateDivisor { c with reload := r₁ } ≤ c.fClock / rateDivisor { c with reload := r₂ } :=
    Nat.div_le_div_left (rateDivisor_anti c hle) (rateDivisor_pos_of_legal hc₂)
  rw [rateResponse_toNat (c := { c with reload := r₁ }) hc (hquot.trans_lt hfits), rateResponse_toNat hc₂ hfits]
  exact hquot

/-- Settles O29: from `RELOAD`, `j` counts carry out of eight bits exactly when `j` is at least `WRAP - RELOAD`. -/
theorem expiryComesAfterThePeriod : Obligations.ExpiryComesAfterThePeriod := by
  intro s j hrun htif htcnt
  have hcount : s.cfg.reload + BitVec.ofNat 8 j = BitVec.ofNat 8 (s.cfg.reload.toNat + j) := by
    apply BitVec.eq_of_toNat_eq
    simp
  have hexpiry : 256 ≤ s.cfg.reload.toNat + j ↔ 256 - s.cfg.reload.toNat ≤ j := by omega
  rw [execAll_tclk_of_run hrun, htcnt, htif, hcount, Bool.false_or, decide_eq_decide.2 hexpiry]

/-- Settles O30: the section leaves one expiry pending, which the first `TICK` takes. -/
theorem missedExpiriesGiveOneTick : Obligations.MissedExpiriesGiveOneTick := by
  intro s j ⟨hshaped, ⟨hinsvc, _⟩, _⟩ hrun hj
  have hsplit : Instr.di :: (List.replicate j Instr.tclk ++ [Instr.ei, Instr.tick, Instr.tick]) =
      (Instr.di :: (List.replicate j Instr.tclk ++ [Instr.ei])) ++ [Instr.tick, Instr.tick] := by simp
  obtain ⟨word, hticks⟩ := execAll_tick_tick
    (s := { s with mask := false, tcnt := s.tcnt + BitVec.ofNat 8 j, tif := true }) hshaped
    (by simp [State.irq, hrun, hinsvc])
  rw [hsplit, execAll_append, execAll_critical_section hrun hj, andThen, hticks]
  exact ⟨_, rfl, rfl, rfl, rfl, by simp [State.refreshed], rfl⟩

/-- Settles O50: two flags make up each of the first two registers, and the rate fits where its quotient does. -/
theorem controlRegisterViews : Obligations.ControlRegisterViews := by
  intro s
  obtain ⟨hctrl0, hctrl1, hctrl⟩ := flags_append s.mask s.run
  obtain ⟨hstatus0, hstatus1, hstatus⟩ := flags_append s.insvc s.tif
  refine ⟨rfl, hctrl0, hctrl1, hstatus0, hstatus1, hctrl, hstatus, rfl, rfl, rfl, fun hc hfits => ?_, ?_⟩
  · exact rateResponse_toNat hc hfits
  · refine ⟨_, rfl, ?_⟩
    simp [State.controlReg]

/-- Settles O20: the segment mask of a `BUILD` has the bits of the select masks. -/
theorem builtPatternBits : Obligations.BuiltPatternBits := by
  intro s t d g e i h hg he hi
  obtain ⟨_, rfl⟩ := exec_build_next.1 h
  obtain rfl : segmentPattern s.stkpos (orAll s.mem.selrom) g = e :=
    Option.some.inj ((segmentTable_getElem? hg).symm.trans he)
  rw [getLsbD_segmentPattern _ _ _ hi, getLsbD_orAll]

end Sys2Proof.Proofs
end

section
/-! What a word of the chain shows under a canonical wiring (00_scope.md R5; 30_encoding.md R96; 42_scan_refresh.md R194;
70_reset_and_hazards.md R274, R283, R285). -/

namespace Sys2Proof.Machine

/-! ## Masks of one line (R5 a) -/

/-- The bits of a mask of one line. -/
theorem getLsbD_of_oneHot {m : Word} (h : oneHot m = true) : ∃ b, ∀ i, m.getLsbD i = decide (i = b) := by
  obtain ⟨b, hb⟩ := List.length_eq_one_iff.1 (of_decide_eq_true h)
  have hmem (i : Nat) : i = b ↔ i < 16 ∧ m.getLsbD i = true := by
    rw [← List.mem_singleton, ← hb, List.mem_filter, List.mem_range]
  refine ⟨b, fun i => Bool.eq_iff_iff.2 ?_⟩
  rw [decide_eq_true_eq, hmem i]
  exact ⟨fun hi => ⟨BitVec.lt_of_getLsbD hi, hi⟩, And.right⟩

/-- A word asserts a mask of one line exactly when it has its bit. -/
theorem asserts_iff_bit {q m : Word} {b : Nat} (hm : ∀ i, m.getLsbD i = decide (i = b)) :
    (m ≠ 0#16 ∧ q &&& m = m) ↔ q.getLsbD b = true := by
  have hmb : m.getLsbD b = true := by simp [hm]
  constructor
  · rintro ⟨_, hq⟩
    have hbit : (q &&& m).getLsbD b = true := by rw [hq, hmb]
    simpa [hmb] using hbit
  · intro hq
    refine ⟨?_, BitVec.eq_of_getLsbD_eq fun i _ => ?_⟩
    · rintro rfl
      simp at hmb
    · rw [BitVec.getLsbD_and, hm]
      by_cases hi : i = b
      · simp [hi, hq]
      · simp [hi]

/-! ## The select masks of a canonical wiring (R5) -/

theorem mem_selrom_of_memRead {s : State} {p : Nat} {m : Word} (h : s.memRead .selrom p = some m) : m ∈ s.mem.selrom :=
  List.mem_of_getElem? h

/-- Each position has one line. -/
theorem State.Canonical.line {s : State} (h : s.Canonical) {p : Nat} {m : Word} (hm : s.memRead .selrom p = some m) :
    ∃ b, ∀ i, m.getLsbD i = decide (i = b) := by
  obtain ⟨honeHot, _⟩ := h
  exact getLsbD_of_oneHot (List.all_eq_true.1 honeHot m (mem_selrom_of_memRead hm))

/-- Two positions with one line are one position. -/
theorem State.Canonical.line_inj {s : State} (h : s.Canonical) {p p' : Nat} {m m' : Word} {b : Nat}
    (hm : s.memRead .selrom p = some m) (hm' : s.memRead .selrom p' = some m')
    (hb : m.getLsbD b = true) (hb' : m'.getLsbD b = true) : p = p' := by
  obtain ⟨k, hk⟩ := h.line hm
  obtain ⟨k', hk'⟩ := h.line hm'
  obtain rfl : b = k := by simpa [hk] using hb
  obtain rfl : b = k' := by simpa [hk'] using hb'
  have heq : m = m' := BitVec.eq_of_getLsbD_eq fun i _ => by rw [hk, hk']
  obtain ⟨_, hnodup, _⟩ := h
  obtain ⟨hp, hget⟩ := List.getElem?_eq_some_iff.1 hm
  obtain ⟨hp', hget'⟩ := List.getElem?_eq_some_iff.1 hm'
  exact (hnodup.getElem_inj_iff (hi := hp) (hj := hp')).1 (hget.trans (heq.trans hget'.symm))

/-- A position is enabled by a word exactly when the word has the bit of its line (R96). -/
theorem enabledBy_eq_bit {s : State} {p : Nat} {m : Word} (hm : s.memRead .selrom p = some m) {b : Nat}
    (hbits : ∀ i, m.getLsbD i = decide (i = b)) (q : Word) : enabledBy s q p = q.getLsbD b := by
  rw [Bool.eq_iff_iff, enabledBy_iff, ← asserts_iff_bit hbits]
  exact ⟨fun ⟨m', hm', h⟩ => by rwa [Option.some.inj (hm.symm.trans hm')], fun h => ⟨m, hm, h⟩⟩

/-! ## The wiring of a canonical block (R5 c) -/

theorem stkpos_mem (stkpos : Vector (BitVec 4) 8) (k : Fin 8) : stkpos[k] ∈ stkpos.toList := by
  simp

/-- No select mask has the bit of a stroke or of the point. -/
theorem State.Canonical.select_wiring {s : State} (h : s.Canonical) {m : Word} (hm : m ∈ s.mem.selrom) (k : Fin 8) :
    m.getLsbD (s.stkpos[k]).toNat = false := by
  obtain ⟨_, _, _, hdisjoint⟩ := h
  have hall := List.all_eq_true.1 (List.all_eq_true.1 hdisjoint m hm) _ (stkpos_mem s.stkpos k)
  simpa using hall

theorem State.Canonical.segmask_wiring {s : State} (h : s.Canonical) (k : Fin 8) :
    (orAll s.mem.selrom).getLsbD (s.stkpos[k]).toNat = false := by
  rw [← Bool.not_eq_true, getLsbD_orAll]
  rintro ⟨m, hm, hbit⟩
  exact Bool.false_ne_true ((h.select_wiring hm k).symm.trans hbit)

/-- The eight wiring positions are different bits. -/
theorem State.Canonical.wiring_inj {s : State} (h : s.Canonical) {j k : Fin 8}
    (heq : (s.stkpos[j]).toNat = (s.stkpos[k]).toNat) : j = k := by
  obtain ⟨_, _, hnodup, _⟩ := h
  have hget : s.stkpos.toList[j.val]'(by simp) = s.stkpos.toList[k.val]'(by simp) := by
    simpa using BitVec.eq_of_toNat_eq heq
  exact Fin.ext (hnodup.getElem_inj_iff.1 hget)

theorem Stroke.index_inj {x y : Stroke} (h : x.index = y.index) : x = y := by
  revert h
  cases x <;> cases y <;> decide

theorem State.Canonical.strokePos_inj {s : State} (h : s.Canonical) {x y : Stroke}
    (heq : (strokePos s.stkpos x).toNat = (strokePos s.stkpos y).toNat) : x = y :=
  Stroke.index_inj (h.wiring_inj heq)

theorem State.Canonical.strokePos_ne_pointPos {s : State} (h : s.Canonical) (x : Stroke) :
    (strokePos s.stkpos x).toNat ≠ (pointPos s.stkpos).toNat := by
  intro heq
  have hindex : x.index = 7 := h.wiring_inj heq
  have hlt := strokeIndex_lt_seven x
  rw [hindex] at hlt
  exact absurd hlt (by decide)

/-- A bit of some strokes, at the position of a stroke. -/
theorem State.Canonical.strokeBits_strokePos {s : State} (h : s.Canonical) (g : List Stroke) (x : Stroke) :
    (strokeBits s.stkpos g).getLsbD (strokePos s.stkpos x).toNat = decide (x ∈ g) := by
  rw [Bool.eq_iff_iff, getLsbD_strokeBits_iff, decide_eq_true_eq]
  constructor
  · rintro ⟨y, hy, heq⟩
    rwa [← h.strokePos_inj heq]
  · exact fun hx => ⟨x, hx, rfl⟩

theorem State.Canonical.strokeBits_pointPos {s : State} (h : s.Canonical) (g : List Stroke) :
    (strokeBits s.stkpos g).getLsbD (pointPos s.stkpos).toNat = false := by
  rw [← Bool.not_eq_true, getLsbD_strokeBits_iff]
  rintro ⟨x, _, heq⟩
  exact h.strokePos_ne_pointPos x heq

/-- No stroke bit is a select bit. -/
theorem State.Canonical.strokeAll_and_segmask {s : State} (h : s.Canonical) :
    strokeAll s.stkpos &&& orAll s.mem.selrom = 0#16 := by
  refine BitVec.eq_of_getLsbD_eq fun i _ => ?_
  rw [BitVec.getLsbD_and, BitVec.getLsbD_zero, Bool.and_eq_false_imp, getLsbD_strokeAll_iff]
  rintro ⟨x, rfl⟩
  exact h.segmask_wiring x.index

/-! ## An entry that is a pattern, with or without the point (R90, R93) -/

/-- A pattern, with the point OR'd in or not. -/
def State.entry (s : State) (g : List Stroke) (point : Bool) : Word :=
  if point then segmentPattern s.stkpos s.segmask g ||| s.dpbit else segmentPattern s.stkpos s.segmask g

/-- A word with one bit is part of another exactly when that has the bit. -/
theorem and_bitMask_eq_zero_iff (w : Word) (k : BitVec 4) : w &&& bitMask k = 0#16 ↔ w.getLsbD k.toNat = false := by
  constructor
  · intro h
    have hbit : (w &&& bitMask k).getLsbD k.toNat = false := by rw [h, BitVec.getLsbD_zero]
    simpa [(getLsbD_bitMask k k.toNat).2 rfl] using hbit
  · intro h
    refine BitVec.eq_of_getLsbD_eq fun i _ => ?_
    rw [BitVec.getLsbD_and, BitVec.getLsbD_zero]
    by_cases hi : k.toNat = i
    · simp [← hi, h]
    · have hout : (bitMask k).getLsbD i = false := by rwa [← Bool.not_eq_true, getLsbD_bitMask]
      simp [hout]

/-- At the position of the point an entry holds the point and nothing else. -/
theorem State.Canonical.entry_pointPos {s : State} (h : s.Canonical) (hcur : s.TablesCurrent) (g : List Stroke)
    (point : Bool) : (s.entry g point).getLsbD (pointPos s.stkpos).toNat = point := by
  obtain ⟨hmask, hpoint, _⟩ := hcur
  have hselect : (orAll s.mem.selrom).getLsbD (pointPos s.stkpos).toNat = false := h.segmask_wiring 7
  have hpattern : (segmentPattern s.stkpos s.segmask g).getLsbD (pointPos s.stkpos).toNat = false := by
    simp only [segmentPattern, BitVec.getLsbD_or, BitVec.getLsbD_and, strokeAll, h.strokeBits_pointPos, hmask, hselect]
    simp
  cases point with
  | false => simpa [State.entry] using hpattern
  | true =>
    have hbit : s.dpbit.getLsbD (pointPos s.stkpos).toNat = true := by rw [hpoint, getLsbD_bitMask]
    simp only [State.entry, if_true, BitVec.getLsbD_or, hbit, Bool.or_true]

/-- The strokes that an entry drives low are those of its glyph, with the point or without. -/
theorem State.Canonical.not_entry_and_strokeAll {s : State} (h : s.Canonical) (hcur : s.TablesCurrent) (g : List Stroke)
    (point : Bool) : ~~~(s.entry g point) &&& strokeAll s.stkpos = strokeBits s.stkpos g := by
  obtain ⟨hmask, hpoint, _⟩ := hcur
  have hdisjoint : strokeAll s.stkpos &&& s.segmask = 0#16 := by rw [hmask, h.strokeAll_and_segmask]
  rw [← not_segmentPattern_and_strokeAll g hdisjoint]
  cases point with
  | false => rfl
  | true =>
    refine BitVec.eq_of_getLsbD_eq fun i hi => ?_
    by_cases hstroke : ∃ x : Stroke, (strokePos s.stkpos x).toNat = i
    · obtain ⟨x, rfl⟩ := hstroke
      have hout : s.dpbit.getLsbD (strokePos s.stkpos x).toNat = false := by
        rw [hpoint, ← Bool.not_eq_true, getLsbD_bitMask]
        exact (h.strokePos_ne_pointPos x).symm
      simp [State.entry, hout]
    · have hall : (strokeAll s.stkpos).getLsbD i = false := by rwa [← Bool.not_eq_true, getLsbD_strokeAll_iff]
      simp [hall]

/-- Every entry holds the segment mask. -/
theorem State.entry_and_segmask (s : State) (g : List Stroke) (point : Bool) :
    s.entry g point &&& s.segmask = s.segmask := by
  have hpattern := segmentPattern_and_segmask s.stkpos s.segmask g
  cases point with
  | false => exact hpattern
  | true =>
    refine BitVec.eq_of_getLsbD_eq fun i _ => ?_
    have hbit := congrArg (fun w : Word => w.getLsbD i) hpattern
    simp only [BitVec.getLsbD_and] at hbit
    simp only [State.entry, if_true, BitVec.getLsbD_and, BitVec.getLsbD_or]
    cases hs : s.segmask.getLsbD i <;> simp_all

/-! ## The transmission word (R183, R96) -/

/-- The select bits of the word of any entry (R285). -/
theorem word_and_segmask {m e segmask : Word} (hm : m &&& segmask = m) :
    (m ||| ~~~e) &&& segmask = m ||| (~~~e &&& segmask) := by
  rw [BitVec.and_or_distrib_right, hm]

/-- An entry that holds the segment mask adds no select bit. -/
theorem word_and_segmask_of_masked {m e segmask : Word} (hm : m &&& segmask = m) (he : e &&& segmask = segmask) :
    (m ||| ~~~e) &&& segmask = m := by
  have hnone : ~~~e &&& segmask = 0#16 := by
    rw [← he, ← BitVec.and_assoc, BitVec.and_comm _ e]
    simp
  rw [word_and_segmask hm, hnone, BitVec.or_zero]

theorem and_orAll_of_mem {ws : List Word} {m : Word} (hm : m ∈ ws) : m &&& orAll ws = m := by
  refine BitVec.eq_of_getLsbD_eq fun i _ => ?_
  rw [BitVec.getLsbD_and, Bool.and_eq_left_iff_imp, getLsbD_orAll]
  exact fun hbit => ⟨m, hm, hbit⟩

/-- At the position of a stroke or of the point, a word carries the inverse of the entry (R96). -/
theorem State.Canonical.word_wiring {s : State} (h : s.Canonical) {m : Word} (hm : m ∈ s.mem.selrom) (e : Word)
    (k : Fin 8) : (m ||| ~~~e).getLsbD (s.stkpos[k]).toNat = !e.getLsbD (s.stkpos[k]).toNat := by
  have hk : (s.stkpos[k]).toNat < 16 := (s.stkpos[k]).isLt
  rw [BitVec.getLsbD_or, BitVec.getLsbD_not, h.select_wiring hm k, decide_eq_true hk, Bool.true_and, Bool.false_or]

theorem State.Canonical.word_and_strokeAll {s : State} (h : s.Canonical) {m : Word} (hm : m ∈ s.mem.selrom) (e : Word) :
    (m ||| ~~~e) &&& strokeAll s.stkpos = ~~~e &&& strokeAll s.stkpos := by
  have hnone : m &&& strokeAll s.stkpos = 0#16 := by
    rw [← and_orAll_of_mem hm, BitVec.and_assoc, BitVec.and_comm (orAll _), h.strokeAll_and_segmask, BitVec.and_zero]
  rw [BitVec.and_or_distrib_right, hnone, BitVec.zero_or]

/-! ## What a position shows (R194) -/

/-- What an entry shows where it is driven: the strokes and the level of the point that it holds at 0. -/
def State.shownEntry (s : State) (e : Word) : Shown :=
  ⟨Stroke.all.filter fun x => !e.getLsbD (strokePos s.stkpos x).toNat, !e.getLsbD (pointPos s.stkpos).toNat⟩

/-- Whatever position a word enables, it shows the entry that the word was composed from. -/
theorem State.Canonical.shownBy_word {s : State} (h : s.Canonical) {m : Word} (hm : m ∈ s.mem.selrom) (e : Word) (p : Nat) :
    shownBy s (m ||| ~~~e) p = if enabledBy s (m ||| ~~~e) p then some (s.shownEntry e) else none := by
  have hstrokes : strokesDriven s (m ||| ~~~e) =
      Stroke.all.filter fun x => !e.getLsbD (strokePos s.stkpos x).toNat :=
    List.filter_congr fun x _ => h.word_wiring hm e x.index
  have hpoint : pointLevel s (m ||| ~~~e) = !e.getLsbD (pointPos s.stkpos).toNat := h.word_wiring hm e 7
  rw [shownBy, hstrokes, hpoint]
  rfl

/-- An entry that is a pattern shows its glyph and the requested point. -/
theorem State.Canonical.shownEntry_entry {s : State} (h : s.Canonical) (hcur : s.TablesCurrent) (g : List Stroke)
    (point : Bool) : s.shownEntry (s.entry g point) = ⟨Stroke.all.filter fun x => decide (x ∈ g), !point⟩ := by
  have hstroke (x : Stroke) : (!(s.entry g point).getLsbD (strokePos s.stkpos x).toNat) = decide (x ∈ g) := by
    have hx : (strokePos s.stkpos x).toNat < 16 := (strokePos s.stkpos x).isLt
    have hall : (strokeAll s.stkpos).getLsbD (strokePos s.stkpos x).toNat = true :=
      (getLsbD_strokeAll_iff _ _).2 ⟨x, rfl⟩
    rw [← h.strokeBits_strokePos, ← h.not_entry_and_strokeAll hcur g point, BitVec.getLsbD_and, BitVec.getLsbD_not, hall]
    simp [hx]
  rw [State.shownEntry, h.entry_pointPos hcur]
  simp only [hstroke]

/-- A word enables one position alone exactly when its select bits are the mask of that position (R194). -/
theorem State.Canonical.select_bits_iff {s : State} (h : s.Canonical) (hwf : s.mem.wf s.cfg = true) {c : Nat} {m : Word}
    (hm : s.memRead .selrom c = some m) (q : Word) :
    q &&& orAll s.mem.selrom = m ↔ ∀ p, p < s.cfg.n → enabledBy s q p = decide (p = c) := by
  obtain ⟨b, hb⟩ := h.line hm
  have hmb : m.getLsbD b = true := by simp [hb]
  constructor
  · intro hq p hp
    obtain ⟨m', hm'⟩ : ∃ m', s.memRead .selrom p = some m' := State.memRead_of_lt hwf hp
    obtain ⟨b', hb'⟩ := h.line hm'
    have hmb' : m'.getLsbD b' = true := by simp [hb']
    have hseg : (orAll s.mem.selrom).getLsbD b' = true := (getLsbD_orAll _ _).2 ⟨m', mem_selrom_of_memRead hm', hmb'⟩
    have hbit : q.getLsbD b' = m.getLsbD b' := by rw [← hq, BitVec.getLsbD_and, hseg, Bool.and_true]
    rw [enabledBy_eq_bit hm' hb', hbit, Bool.eq_iff_iff, decide_eq_true_eq]
    constructor
    · exact fun hmb'' => h.line_inj hm' hm hmb' hmb''
    · rintro rfl
      rwa [Option.some.inj (hm.symm.trans hm')]
  · intro hall
    refine BitVec.eq_of_getLsbD_eq fun i _ => ?_
    rw [BitVec.getLsbD_and]
    cases hseg : (orAll s.mem.selrom).getLsbD i with
    | false =>
      rw [Bool.and_false, eq_comm, ← Bool.not_eq_true]
      intro hmi
      rw [← Bool.not_eq_true] at hseg
      exact hseg ((getLsbD_orAll _ _).2 ⟨m, mem_selrom_of_memRead hm, hmi⟩)
    | true =>
      obtain ⟨m', hmem, hm'i⟩ := (getLsbD_orAll _ _).1 hseg
      obtain ⟨p, hp, hget⟩ := List.getElem_of_mem hmem
      have hm' : s.memRead .selrom p = some m' := List.getElem?_eq_some_iff.2 ⟨hp, hget⟩
      obtain ⟨b', hb'⟩ := h.line hm'
      obtain rfl : i = b' := by simpa [hb'] using hm'i
      have hpn : p < s.cfg.n := by
        have hlen := (Memory.wf_iff s.mem s.cfg).1 hwf .selrom
        exact hp.trans_eq hlen
      rw [Bool.and_true, ← enabledBy_eq_bit hm' hb', hall p hpn, Bool.eq_iff_iff, decide_eq_true_eq]
      constructor
      · rintro rfl
        rwa [Option.some.inj (hm.symm.trans hm')]
      · exact fun hmi => h.line_inj hm' hm hm'i hmi

/-- The word of an entry enables the refreshed position and those whose line the entry holds at 0 (R285). -/
theorem State.Canonical.enabledBy_word {s : State} (h : s.Canonical) {c p : Nat} {m m' e : Word}
    (hm : s.memRead .selrom c = some m) (hm' : s.memRead .selrom p = some m') :
    enabledBy s (m ||| ~~~e) p = true ↔ p = c ∨ e &&& m' = 0#16 := by
  obtain ⟨b, hb⟩ := h.line hm'
  have hmb : m'.getLsbD b = true := by simp [hb]
  have hlt : b < 16 := BitVec.lt_of_getLsbD hmb
  have hselect : m.getLsbD b = true ↔ p = c := by
    refine ⟨h.line_inj hm' hm hmb, ?_⟩
    rintro rfl
    rwa [Option.some.inj (hm.symm.trans hm')]
  have hzero : e &&& m' = 0#16 ↔ e.getLsbD b = false := by
    have hone : m' = bitMask (BitVec.ofNat 4 b) := by
      refine BitVec.eq_of_getLsbD_eq fun i _ => ?_
      rw [Bool.eq_iff_iff, getLsbD_bitMask, hb, decide_eq_true_eq, toNat_ofNat_four hlt, eq_comm]
    rw [hone, and_bitMask_eq_zero_iff, toNat_ofNat_four hlt]
  rw [enabledBy_eq_bit hm' hb, BitVec.getLsbD_or, Bool.or_eq_true, hselect, hzero, BitVec.getLsbD_not]
  simp [hlt]

/-! ## The display after a `TICK` -/

theorem State.refreshed_q {s : State} (hsclk : s.wires.sclk = false) (word : Word) :
    (s.refreshed word).wires.q = word := congrArg Wires.q (Wires.replay_tickTrace hsclk word)

theorem State.display_refreshed {s : State} (hsclk : s.wires.sclk = false) (word : Word) {p : Nat} (hp : p < s.cfg.n) :
    (s.refreshed word).display[p]? = some (shownBy s word p) := by
  rw [State.display_getElem? (s.refreshed word) hp, State.refreshed_q hsclk]
  rfl

/-- An enabled `TICK` that completes has sent the word of the entries at the cursor. -/
theorem exec_tick_refreshed {s t : State} {m e : Word} (hirq : s.irq = true) (hm : s.memRead .selrom s.cursor = some m)
    (he : s.memRead .buf s.cursor = some e) (h : exec .tick s = .next t) : t = s.refreshed (m ||| ~~~e) := by
  obtain ⟨m', e', hm', he', rfl⟩ := (exec_tick_next_of_irq hirq).1 h
  rw [Option.some.inj (hm.symm.trans hm'), Option.some.inj (he.symm.trans he')]

/-- With current tables the entry of a digit is the pattern of its glyph. -/
theorem State.TablesCurrent.entry_eq {s : State} (hcur : s.TablesCurrent) {d : Nat} {g : List Stroke} {pat : Word}
    (hg : s.cfg.glyph[d]? = some g) (hpat : s.memRead .segrom d = some pat) (point : Bool) :
    (if point then pat ||| s.dpbit else pat) = s.entry g point := by
  obtain ⟨_, _, htable⟩ := hcur
  have hread : s.memRead .segrom d = (segmentTable s.stkpos s.segmask s.cfg.glyph)[d]? := by rw [← htable]; rfl
  rw [segmentTable_getElem? hg] at hread
  rw [Option.some.inj (hpat.symm.trans hread)]
  rfl

/-! ## The display after construction (R274) -/

theorem constructed_canonical {c : Config} (hc : c.canonical = true) (d : ResetDraw) :
    (State.constructed c d).Canonical := by
  simp only [Config.canonical, Bool.and_eq_true, decide_eq_true_eq] at hc
  obtain ⟨⟨⟨honeHot, hnodup⟩, hwiring⟩, hdisjoint⟩ := hc
  exact ⟨honeHot, hnodup, hwiring, hdisjoint⟩

/-- The word that asserts the masks of a set of positions. -/
def selectWord (c : Config) (on : Nat → Bool) : Word :=
  orAll (((List.range c.n).filter on).map fun p => c.sel.getD p 0#16)

/-- It enables exactly these positions. -/
theorem enabledBy_selectWord {c : Config} (hc : c.canonical = true) (d : ResetDraw) (on : Nat → Bool) {p : Nat}
    (hp : p < c.n) : enabledBy (State.constructed c d) (selectWord c on) p = on p := by
  have hcan := constructed_canonical hc d
  have hread {j : Nat} (hj : j < c.n) : (State.constructed c d).memRead .selrom j = some (c.sel.getD j 0#16) := by
    have hj' : j < c.sel.length := hj
    simp [State.memRead, State.constructed, Memory.space, hj']
  obtain ⟨b, hb⟩ := hcan.line (hread hp)
  have hpb : (c.sel.getD p 0#16).getLsbD b = true := by rw [hb, decide_eq_true rfl]
  rw [enabledBy_eq_bit (hread hp) hb, Bool.eq_iff_iff, selectWord, getLsbD_orAll]
  simp only [List.mem_map, List.mem_filter, List.mem_range]
  constructor
  · rintro ⟨_, ⟨j, ⟨hj, hon⟩, rfl⟩, hbit⟩
    rwa [hcan.line_inj (hread hp) (hread hj) hpb hbit]
  · exact fun hon => ⟨_, ⟨p, ⟨hp, hon⟩, rfl⟩, hpb⟩

end Sys2Proof.Machine

namespace Sys2Proof.Proofs

open Sys2Proof.Machine

/-- Settles O40: under a canonical wiring the three classes of bits are disjoint, so that each is carried by one part of the
word. -/
theorem transmissionWordClasses : Obligations.TransmissionWordClasses := by
  intro s t d g pat m point _ hirq hcan hcur hg hpat hm he h
  rw [hcur.entry_eq hg hpat] at he
  obtain rfl := exec_tick_refreshed hirq hm he h
  have hmem := mem_selrom_of_memRead hm
  have hselect : m &&& s.segmask = m := by
    obtain ⟨hmask, _⟩ := hcur
    rw [hmask, and_orAll_of_mem hmem]
  refine ⟨word_and_segmask_of_masked hselect (s.entry_and_segmask g point), ?_, ?_⟩
  · exact (hcan.word_and_strokeAll hmem _).trans (hcan.not_entry_and_strokeAll hcur g point)
  · have hbit : (s.refreshed (m ||| ~~~s.entry g point)).word.getLsbD (pointPos s.stkpos).toNat = !point :=
      (hcan.word_wiring hmem _ 7).trans (congrArg not (hcan.entry_pointPos hcur g point))
    obtain ⟨_, hpoint, _⟩ := hcur
    rw [hpoint, and_bitMask_eq_zero_iff, hbit, Bool.not_eq_false']

/-- Settles O41: the select bits of the word are the mask of the refreshed position, hence it is the only one enabled
(`State.Canonical.select_bits_iff`), and the word shows its entry. -/
theorem displayShowsOneDigit : Obligations.DisplayShowsOneDigit := by
  refine ⟨fun s t d g pat point hinv hirq hcan hcur hg hpat he h p hp => ?_, fun s q m c hinv hcan hmask hm => ?_⟩
  · obtain ⟨⟨_, hwf, hcursor⟩, ⟨_, _, _, hsclk, _⟩, _⟩ := hinv
    obtain ⟨m, hm⟩ : ∃ m, s.memRead .selrom s.cursor = some m := State.memRead_of_lt hwf hcursor
    have hmem := mem_selrom_of_memRead hm
    rw [hcur.entry_eq hg hpat] at he
    obtain rfl := exec_tick_refreshed hirq hm he h
    have hselect : (m ||| ~~~s.entry g point) &&& orAll s.mem.selrom = m := by
      have hmasked := s.entry_and_segmask g point
      obtain ⟨hmask, _⟩ := hcur
      rw [hmask] at hmasked
      exact word_and_segmask_of_masked (and_orAll_of_mem hmem) hmasked
    rw [State.display_refreshed hsclk _ hp, hcan.shownBy_word hmem, (hcan.select_bits_iff hwf hm _).1 hselect p hp,
      hcan.shownEntry_entry hcur]
    simp
  · obtain ⟨⟨_, hwf, _⟩, _⟩ := hinv
    rw [hmask]
    exact hcan.select_bits_iff hwf hm q

/-- Settles O42: the word asserts the mask at the cursor and the inverse of the entry, whatever the entry is; and any word
is some draw's `Q`. -/
theorem rawBufferWordEnablesMoreDigits : Obligations.RawBufferWordEnablesMoreDigits := by
  refine ⟨fun s t m e hinv hirq hm he hselect h => ?_, fun s t e hinv hirq hcan he h p m' hm' => ?_, fun c on _ hc => ?_⟩
  · obtain ⟨_, ⟨_, _, _, hsclk, _⟩, _⟩ := hinv
    obtain rfl := exec_tick_refreshed hirq hm he h
    rw [State.refreshed_q hsclk, word_and_segmask hselect]
  · obtain ⟨⟨_, hwf, hcursor⟩, ⟨_, _, _, hsclk, _⟩, _⟩ := hinv
    obtain ⟨m, hm⟩ : ∃ m, s.memRead .selrom s.cursor = some m := State.memRead_of_lt hwf hcursor
    obtain rfl := exec_tick_refreshed hirq hm he h
    have hp : p < s.cfg.n := by
      obtain ⟨hlt, _⟩ := List.getElem?_eq_some_iff.1 hm'
      rwa [(Memory.wf_iff s.mem s.cfg).1 hwf .selrom] at hlt
    rw [State.display_refreshed hsclk _ hp, hcan.shownBy_word (mem_selrom_of_memRead hm)]
    simp only [hcan.enabledBy_word hm hm']
    rfl
  · refine ⟨⟨fun _ => 0#16, 0#16, 0#16, selectWord c on⟩, fun p hp => ⟨_, State.display_getElem? _ hp, ?_⟩⟩
    rw [shownBy_isSome]
    exact enabledBy_selectWord hc _ on hp

end Sys2Proof.Proofs
end

section
/-! The value formatter as a sequence of operations (41_buffer_formatter.md R151 to R166): what the loop of a render issues,
what it writes, and that no event between its commands changes that. -/

namespace Sys2Proof.Machine

/-! ## The operations of a render's loop (R152) -/

/-- An operation that a render's loop may issue: a look-up of a digit or a write of a position, in range. -/
inductive LoopOp (c : Config) : Instr → Prop where
  | rdseg {d : Nat} (hd : d < c.nglyph) : LoopOp c (.rdseg d)
  | wrbuf {p : Nat} (hp : p < c.n) (w : Word) : LoopOp c (.wrbuf p w)

/-- The buffer after the writes among some operations. -/
def bufferAfter : List Instr → List Word → List Word
  | [], ws => ws
  | .wrbuf p w :: is, ws => bufferAfter is (ws.set p w)
  | _ :: is, ws => bufferAfter is ws

@[simp] theorem bufferAfter_length (is : List Instr) (ws : List Word) : (bufferAfter is ws).length = ws.length := by
  induction is generalizing ws with
  | nil => rfl
  | cons i is ih => cases i <;> simp [bufferAfter, ih]

/-- The state with another buffer and response. -/
def State.written (s : State) (ws : List Word) (r : Option HostWord) : State :=
  { s with mem := { s.mem with buf := ws }, resp := r }

/-- A buffer of the configured length keeps the memory in canonical form. -/
theorem State.written_wf {s : State} (hwf : s.mem.wf s.cfg = true) (is : List Instr) (r : Option HostWord) :
    (s.written (bufferAfter is s.mem.buf) r).mem.wf s.cfg = true := by
  rw [Memory.wf_iff] at hwf ⊢
  intro sp
  cases sp with
  | selrom => exact hwf .selrom
  | segrom => exact hwf .segrom
  | buf => exact (bufferAfter_length is s.mem.buf).trans (hwf .buf)

/-- A legal configuration keeps every operation of the loop inside its fields and on the host port (R98, R99). -/
theorem LoopOp.hostOp {c : Config} (hc : c.legal = true) {i : Instr} (h : LoopOp c i) :
    i.wellFormed = true ∧ i.isHostOp = true := by
  simp only [Config.legal, Bool.and_eq_true, Bool.or_eq_true, decide_eq_true_eq] at hc
  obtain ⟨⟨⟨⟨⟨⟨⟨_, hn⟩, hglyph⟩, _⟩, _⟩, _⟩, _⟩, _⟩ := hc
  cases h with
  | rdseg hd => exact ⟨decide_eq_true (by omega), rfl⟩
  | wrbuf hp w => exact ⟨decide_eq_true (by omega), rfl⟩

/-- An operation of the loop changes the buffer by its write, and the response, and nothing else. -/
theorem LoopOp.exec {s : State} (hwf : s.mem.wf s.cfg = true) {i : Instr} (h : LoopOp s.cfg i) :
    ∃ r, Machine.exec i s = .next (s.written (bufferAfter [i] s.mem.buf) r) := by
  cases h with
  | rdseg hd =>
    obtain ⟨e, he⟩ : ∃ e, s.memRead .segrom _ = some e := State.memRead_of_lt hwf hd
    exact ⟨_, exec_rdseg_of_memRead hd he⟩
  | wrbuf hp w => exact ⟨s.resp, exec_wrbuf_of_lt hwf hp w⟩

theorem bufferAfter_cons (i : Instr) (is : List Instr) (ws : List Word) :
    bufferAfter (i :: is) ws = bufferAfter is (bufferAfter [i] ws) := by
  cases i <;> rfl

/-- The operations of a loop, issued one after the other. -/
theorem issueAll_loopOps {s : State} (hwf : s.mem.wf s.cfg = true) {is : List Instr} (his : ∀ i ∈ is, LoopOp s.cfg i) :
    ∃ r, issueAll is s = .next (s.written (bufferAfter is s.mem.buf) r) := by
  induction is generalizing s with
  | nil => exact ⟨s.resp, rfl⟩
  | cons i is ih =>
    obtain ⟨hi, hrest⟩ := List.forall_mem_cons.1 his
    obtain ⟨r, hr⟩ := LoopOp.exec (s := s.emptyPort) hwf hi
    obtain ⟨r', hr'⟩ := ih (s := s.written (bufferAfter [i] s.mem.buf) r) (State.written_wf hwf [i] r) hrest
    refine ⟨r', ?_⟩
    rw [issueAll, issue, hr, andThen, bufferAfter_cons i is]
    exact hr'

/-! ## The loop and its operations (R152) -/

/-- The entry that a loop over `lo` to `hi` writes at position `i`: the pattern of the digit there, with the point where it
is requested (R156, R157). -/
def State.loopEntry (s : State) (lo hi : Nat) (dp : Option Nat) (base v i : Nat) : Option Word :=
  (s.memRead .segrom (digitAt v base hi i)).map (entryAt s lo dp i)

/-- The digit at a position, seen from the position above it: that of the value without its lowest digit. -/
theorem digitAt_div (v base hi i : Nat) (hi' : i < hi) : digitAt (v / base) base hi i = digitAt v base (hi + 1) i := by
  have hexp : hi + 1 - 1 - i = (hi - 1 - i) + 1 := by omega
  rw [digitAt, digitAt, hexp, pow_succ', Nat.div_div_eq_div_mul]

/-- The operations of a loop whose digits and positions are in range: two for each position, and what they write. -/
theorem loopOperations_spec {s : State} (hwf : s.mem.wf s.cfg = true) {base : Nat} (hpos : 0 < base)
    (hbase : base ≤ s.cfg.nglyph) (lo : Nat) (dp : Option Nat) (k t : Nat) (hk : lo + k ≤ s.cfg.n) :
    ∃ is, loopOperations s lo dp base k t = some is ∧ is.length = 2 * k ∧ (∀ i ∈ is, LoopOp s.cfg i) ∧
      ∀ ws : List Word, ws.length = s.cfg.n → ∀ i, (bufferAfter is ws)[i]? =
        if lo ≤ i ∧ i < lo + k then s.loopEntry lo (lo + k) dp base t i else ws[i]? := by
  induction k generalizing t with
  | zero => exact ⟨[], rfl, rfl, nofun, fun ws _ i => by rw [if_neg (by omega)]; rfl⟩
  | succ k ih =>
    obtain ⟨is, his, hlen, hops, hwrites⟩ := ih (t / base) (by omega)
    have hd : t % base < s.cfg.nglyph := (Nat.mod_lt t hpos).trans_le hbase
    obtain ⟨e, he⟩ : ∃ e, s.memRead .segrom (t % base) = some e := State.memRead_of_lt hwf hd
    refine ⟨.rdseg (t % base) :: .wrbuf (lo + k) (entryAt s lo dp (lo + k) e) :: is, ?_, ?_, ?_, fun ws hws i => ?_⟩
    · simp [loopOperations, he, his]
    · simp [hlen]; omega
    · exact List.forall_mem_cons.2 ⟨.rdseg hd, List.forall_mem_cons.2 ⟨.wrbuf (by omega) _, hops⟩⟩
    · have hcons : bufferAfter (.rdseg (t % base) :: .wrbuf (lo + k) (entryAt s lo dp (lo + k) e) :: is) ws =
          bufferAfter is (ws.set (lo + k) (entryAt s lo dp (lo + k) e)) := rfl
      rw [hcons, hwrites _ (by simpa using hws)]
      obtain hlt | rfl | hgt := lt_trichotomy i (lo + k)
      · rw [State.loopEntry, State.loopEntry, digitAt_div _ _ _ _ hlt, List.getElem?_set_ne (by omega)]
        simp only [show i < lo + (k + 1) by omega, hlt]
        rfl
      · have hlt : lo + k < ws.length := by omega
        have hdigit : digitAt t base (lo + (k + 1)) (lo + k) = t % base := by
          simp [digitAt]
        rw [if_neg (by omega), if_pos (by omega), List.getElem?_set_self hlt, State.loopEntry, hdigit, he]
        rfl
      · rw [if_neg (by omega), if_neg (by omega), List.getElem?_set_ne (by omega)]

/-- What the loop reads of a state: the table, the point's bit and the configuration, which it does not change. -/
structure State.SameTables (s u : State) : Prop where
  cfg_eq : u.cfg = s.cfg
  segrom_eq : u.mem.segrom = s.mem.segrom
  dpbit_eq : u.dpbit = s.dpbit

theorem entryAt_congr {s u : State} (h : s.SameTables u) (lo : Nat) (dp : Option Nat) (i : Nat) (e : Word) :
    entryAt u lo dp i e = entryAt s lo dp i e := by
  rw [entryAt, entryAt, h.cfg_eq, h.dpbit_eq]

/-- A pattern comes back from the response port as it was looked up (R106). -/
theorem setWidth_zeroExtended (e : Word) : (zeroExtended e).setWidth 16 = e := by
  apply BitVec.eq_of_toNat_eq
  simp [zeroExtended]

/-- The loop issues its operations. -/
theorem renderLoop_eq_issueAll {s : State} {base : Nat} (hpos : 0 < base) (hbase : base ≤ s.cfg.nglyph) (lo : Nat)
    (dp : Option Nat) {k t : Nat} {is : List Instr} (his : loopOperations s lo dp base k t = some is) {u : State}
    (hu : s.SameTables u) : renderLoop lo dp base k t u = issueAll is u := by
  induction k generalizing t is u with
  | zero =>
    cases his
    rfl
  | succ k ih =>
    rw [loopOperations] at his
    split at his
    next e js he hjs =>
      cases his
      have hd : t % base < u.emptyPort.cfg.nglyph := by
        rw [State.emptyPort_cfg, hu.cfg_eq]
        exact (Nat.mod_lt t hpos).trans_le hbase
      have he' : u.emptyPort.memRead .segrom (t % base) = some e := by
        rw [← he, State.memRead, State.memRead, State.emptyPort_mem]
        exact congrArg (·[t % base]?) hu.segrom_eq
      have hlook : issue (.rdseg (t % base)) u = .next (u.emptyPort.respond (zeroExtended e)) :=
        exec_rdseg_of_memRead hd he'
      have hsame : s.SameTables (u.emptyPort.respond (zeroExtended e)) := ⟨hu.cfg_eq, hu.segrom_eq, hu.dpbit_eq⟩
      simp only [renderLoop, issueAll, hlook, andThen, State.respond_resp, setWidth_zeroExtended, entryAt_congr hsame]
      cases hwrite : issue (.wrbuf (lo + k) (entryAt s lo dp (lo + k) e)) (u.emptyPort.respond (zeroExtended e)) with
      | next v =>
        obtain ⟨_, _, rfl⟩ := exec_wrbuf_next.1 hwrite
        exact ih hjs ⟨hu.cfg_eq, hu.segrom_eq, hu.dpbit_eq⟩
      | refused r => rfl
      | fault f => rfl
    next => cases his

/-! ## A whole render (R152, R156, R163) -/

/-- What a render leaves: the buffer that its operations write, the mask clear and the port empty. -/
def State.rendered (s : State) (body : List Instr) : State :=
  { s with mem := { s.mem with buf := bufferAfter body s.mem.buf }, mask := false, resp := none }

/-- The state in which the loop of a render starts: masked, the port empty. -/
def State.entered (s : State) : State := { s with mask := true, resp := none }

theorem issue_di (s : State) : issue .di s = .next s.entered := rfl

/-- The panel of a render lies in the buffer, and its width is its extent. -/
theorem Panel.bounds (c : Config) (p : Panel) : p.lo c ≤ p.hi c ∧ p.hi c ≤ c.n := by
  cases p with
  | first => exact ⟨Nat.zero_le _, Nat.div_le_self _ _⟩
  | second => exact ⟨Nat.div_le_self _ _, le_rfl⟩
  | whole => exact ⟨Nat.zero_le _, le_rfl⟩

theorem Panel.first_second_disjoint (c : Config) (i : Nat) :
    ¬((Panel.first.lo c ≤ i ∧ i < Panel.first.hi c) ∧ Panel.second.lo c ≤ i ∧ i < Panel.second.hi c) := by
  simp only [Panel.lo, Panel.hi]
  omega

/-- The entry that a render writes at a position of its panel. -/
def State.renderEntry (s : State) (r : RenderCall) (i : Nat) : Option Word :=
  s.loopEntry (r.panel.lo s.cfg) (r.panel.hi s.cfg) r.dp r.base r.value.toNat i

/-- The operations between `DI` and `EI` of an accepted render. -/
theorem renderBody_spec {r : RenderCall} {s : State} (hwf : s.mem.wf s.cfg = true) (hr : r.refusal s.cfg = none) :
    ∃ body, renderBody r s = some body ∧ body.length = 2 * (r.panel.hi s.cfg - r.panel.lo s.cfg) ∧
      (∀ i ∈ body, LoopOp s.cfg i) ∧ ∀ i, (bufferAfter body s.mem.buf)[i]? =
        if r.panel.lo s.cfg ≤ i ∧ i < r.panel.hi s.cfg then s.renderEntry r i else s.memRead .buf i := by
  obtain ⟨⟨hbase, _, hglyph⟩, _⟩ := (r.accepted_iff s.cfg).1 hr
  obtain ⟨hle, hn⟩ := r.panel.bounds s.cfg
  have hend : r.panel.lo s.cfg + r.width s.cfg = r.panel.hi s.cfg := Nat.add_sub_cancel' hle
  obtain ⟨body, hbody, hlen, hops, hwrites⟩ := loopOperations_spec hwf (by omega) hglyph (r.panel.lo s.cfg) r.dp
    (r.width s.cfg) r.value.toNat (by omega)
  refine ⟨body, hbody, hlen, hops, fun i => ?_⟩
  have hbuf := hwrites s.mem.buf ((Memory.wf_iff s.mem s.cfg).1 hwf .buf) i
  rw [hend] at hbuf
  exact hbuf

/-- An accepted render is `DI`, its body and `EI`, issued one after the other. -/
theorem render_eq_issueAll {r : RenderCall} {s : State} {body : List Instr} (hr : r.refusal s.cfg = none)
    (hbody : renderBody r s = some body) : render r s = issueAll (.di :: (body ++ [.ei])) s := by
  obtain ⟨⟨hbase, _, hglyph⟩, _⟩ := (r.accepted_iff s.cfg).1 hr
  rw [render_of_accepted hr, issueAll, issue_di, andThen, andThen, issueAll_append,
    renderLoop_eq_issueAll (by omega) hglyph _ _ hbody (u := s.entered) ⟨rfl, rfl, rfl⟩]
  rfl

/-- The outcome of an accepted render. -/
theorem render_next {r : RenderCall} {s : State} {body : List Instr} (hwf : s.mem.wf s.cfg = true)
    (hr : r.refusal s.cfg = none) (hbody : renderBody r s = some body) (hops : ∀ i ∈ body, LoopOp s.cfg i) :
    render r s = .next (s.rendered body) := by
  obtain ⟨ρ, hloop⟩ := issueAll_loopOps (s := s.entered) hwf hops
  rw [render_eq_issueAll hr hbody, issueAll, issue_di, andThen, issueAll_append, hloop]
  rfl

/-- The entries after an accepted render: those of the panel are written, the others are as they were (R156, R163). -/
theorem render_spec {r : RenderCall} {s : State} (hwf : s.mem.wf s.cfg = true) (hr : r.refusal s.cfg = none) :
    ∃ body, render r s = .next (s.rendered body) ∧ ∀ i, (s.rendered body).memRead .buf i =
      if r.panel.lo s.cfg ≤ i ∧ i < r.panel.hi s.cfg then s.renderEntry r i else s.memRead .buf i := by
  obtain ⟨body, hbody, _, hops, hwrites⟩ := renderBody_spec hwf hr
  exact ⟨body, render_next hwf hr hbody hops, hwrites⟩

theorem State.rendered_inv {s : State} (hinv : s.Inv) (body : List Instr) : (s.rendered body).Inv := by
  obtain ⟨⟨hlegal, hwf, hcursor⟩, hresting, hmasked, hpending⟩ := hinv
  exact ⟨⟨hlegal, State.written_wf hwf body none, hcursor⟩, hresting, hmasked, hpending⟩

/-! ## The entries of a render, written out (R156, R157) -/

theorem dpIndex_eq (c : Config) (lo i : Nat) : dpIndex c lo i = if c.dpIndexing = .absolute then i else i - lo := by
  unfold dpIndex
  cases c.dpIndexing <;> rfl

theorem entryAt_eq (s : State) (lo : Nat) (dp : Option Nat) (i : Nat) (e : Word) :
    entryAt s lo dp i e =
      if dp = some (if s.cfg.dpIndexing = .absolute then i else i - lo) then e ||| s.dpbit else e := by
  simp only [entryAt, pointAt, dpIndex_eq, decide_eq_true_eq]

theorem renderEntry_eq {r : RenderCall} {s : State} {lo hi i : Nat} {e : Word} (hlo : r.panel.lo s.cfg = lo)
    (hhi : r.panel.hi s.cfg = hi) (he : s.memRead .segrom (r.value.toNat / r.base ^ (hi - 1 - i) % r.base) = some e) :
    s.renderEntry r i =
      some (if r.dp = some (if s.cfg.dpIndexing = .absolute then i else i - lo) then e ||| s.dpbit else e) := by
  rw [State.renderEntry, State.loopEntry, hlo, hhi, digitAt, he, Option.map_some, entryAt_eq]

/-- The digit at a position of an accepted render has an entry. -/
theorem renderDigit_memRead {r : RenderCall} {s : State} (hwf : s.mem.wf s.cfg = true) (hr : r.refusal s.cfg = none)
    (v : Nat) : v % r.base < s.cfg.nglyph ∧ ∃ e, s.memRead .segrom (v % r.base) = some e := by
  obtain ⟨⟨hbase, _, hglyph⟩, _⟩ := (r.accepted_iff s.cfg).1 hr
  have hd : v % r.base < s.cfg.nglyph := (Nat.mod_lt v (by omega)).trans_le hglyph
  exact ⟨hd, State.memRead_of_lt hwf hd⟩

/-- The entries of the panel of a buffer that a render has written, in the words of the statements. -/
theorem panel_entries {r : RenderCall} {s t : State} {lo hi : Nat} (hwf : s.mem.wf s.cfg = true)
    (hr : r.refusal s.cfg = none) (hlo : r.panel.lo s.cfg = lo) (hhi : r.panel.hi s.cfg = hi)
    (ht : ∀ i, t.memRead .buf i =
      if r.panel.lo s.cfg ≤ i ∧ i < r.panel.hi s.cfg then s.renderEntry r i else s.memRead .buf i) :
    (∀ i, lo ≤ i → i < hi →
      ∃ e, s.memRead .segrom (r.value.toNat / r.base ^ (hi - 1 - i) % r.base) = some e ∧
        t.memRead .buf i = some (if r.dp = some (if s.cfg.dpIndexing = .absolute then i else i - lo)
          then e ||| s.dpbit else e)) ∧
    (∀ i, i < lo ∨ hi ≤ i → t.memRead .buf i = s.memRead .buf i) := by
  refine ⟨fun i hi₁ hi₂ => ?_, fun i hout => ?_⟩
  · obtain ⟨_, e, he⟩ := renderDigit_memRead hwf hr (r.value.toNat / r.base ^ (hi - 1 - i))
    refine ⟨e, he, ?_⟩
    rw [ht, hlo, hhi, if_pos ⟨hi₁, hi₂⟩, renderEntry_eq hlo hhi he]
  · rw [ht, hlo, hhi, if_neg (by omega)]

/-! ## Reading a rendered panel back (R164) -/

/-- Where the glyphs are pairwise distinct, the entry of a digit decodes to the digit. -/
theorem entryDigit_entry {s t : State} (hcfg : t.cfg = s.cfg) (hstk : t.stkpos = s.stkpos) (hcan : s.Canonical)
    (hcur : s.TablesCurrent) (hglyphs : (s.cfg.glyph.map (strokeBits s.stkpos)).Nodup) {d : Nat} {g : List Stroke}
    (hg : s.cfg.glyph[d]? = some g) (point : Bool) : entryDigit t (s.entry g point) = some d := by
  obtain ⟨hd, hget⟩ := List.getElem?_eq_some_iff.1 hg
  rw [entryDigit, entryLit, hcfg, hstk, hcan.not_entry_and_strokeAll hcur, List.findIdx?_eq_some_iff_getElem]
  refine ⟨hd, by simp [hget], fun j hj => ?_⟩
  have hj' : j < s.cfg.glyph.length := hj.trans hd
  have hne : strokeBits s.stkpos s.cfg.glyph[j] ≠ strokeBits s.stkpos g := by
    intro heq
    have hidx := (hglyphs.getElem_inj_iff (i := j) (j := d) (hi := by simpa using hj') (hj := by simpa using hd)).1
      (by simpa [hget] using heq)
    omega
  simpa using hne

/-- A number that fits `w` digits is their sum (R158). -/
theorem sum_digits {b w v : Nat} (hv : v < b ^ w) :
    ((List.range w).map fun j => v / b ^ j % b * b ^ j).sum = v := by
  induction w generalizing v with
  | zero => simpa [eq_comm] using hv
  | succ w ih =>
    have hrest : v / b < b ^ w := Nat.div_lt_of_lt_mul (by rwa [pow_succ'] at hv)
    have hshift (j : Nat) : v / b ^ (j + 1) % b * b ^ (j + 1) = b * (v / b / b ^ j % b * b ^ j) := by
      rw [pow_succ', Nat.div_div_eq_div_mul]
      ring
    rw [List.range_succ_eq_map, List.map_cons, List.sum_cons, List.map_map]
    simp only [Function.comp_def, Nat.succ_eq_add_one, hshift]
    rw [List.sum_map_mul_left, ih hrest, pow_zero, Nat.div_one, mul_one, Nat.mod_add_div]

/-! ## Two panels (R153, R154) -/

/-- Memories with the same entries are the same. -/
theorem Memory.eq_of_memRead {s t : State} (h : ∀ sp i, t.memRead sp i = s.memRead sp i) : t.mem = s.mem := by
  have hspace (sp : Space) : t.mem.space sp = s.mem.space sp := List.ext_getElem? (h sp)
  have hsel : t.mem.selrom = s.mem.selrom := hspace .selrom
  have hseg : t.mem.segrom = s.mem.segrom := hspace .segrom
  have hbuf : t.mem.buf = s.mem.buf := hspace .buf
  cases hs : s.mem
  cases ht : t.mem
  simp_all

/-- One render after another in another panel: each panel has its own entries, and the rest is as it was. -/
theorem render_render_spec {r r' : RenderCall} {s : State} (hinv : s.Inv) (hr : r.refusal s.cfg = none)
    (hr' : r'.refusal s.cfg = none) :
    ∃ t, andThen (render r s) (render r') = .next t ∧ (∀ sp i, sp ≠ .buf → t.memRead sp i = s.memRead sp i) ∧
      ∀ i, t.memRead .buf i =
        if r'.panel.lo s.cfg ≤ i ∧ i < r'.panel.hi s.cfg then s.renderEntry r' i
        else if r.panel.lo s.cfg ≤ i ∧ i < r.panel.hi s.cfg then s.renderEntry r i else s.memRead .buf i := by
  have ⟨⟨_, hwf, _⟩, _⟩ := hinv
  obtain ⟨body, hrender, hwrites⟩ := render_spec hwf hr
  have ⟨⟨_, hwf', _⟩, _⟩ := s.rendered_inv hinv body
  obtain ⟨body', hrender', hwrites'⟩ := render_spec (s := s.rendered body) hwf' hr'
  refine ⟨_, andThen_next.2 ⟨_, hrender, hrender'⟩, fun sp i hsp => ?_, fun i => ?_⟩
  · cases sp with
    | buf => exact absurd rfl hsp
    | selrom | segrom => rfl
  · rw [hwrites', hwrites]
    rfl

end Sys2Proof.Machine

namespace Sys2Proof.Proofs

open Sys2Proof.Machine

/-- Settles O52: the body of a render writes the entries of its panel and nothing else. -/
theorem renderWritesTheDigits : Obligations.RenderWritesTheDigits := by
  intro r s lo hi ⟨⟨_, hwf, _⟩, _⟩ hr hlo hhi
  obtain ⟨body, hrender, hwrites⟩ := render_spec hwf hr
  obtain ⟨hpanel, hout⟩ := panel_entries hwf hr ((Panel.lo_eq s.cfg r.panel).trans hlo.symm)
    ((Panel.hi_eq s.cfg r.panel).trans hhi.symm) hwrites
  refine ⟨_, hrender, rfl, hpanel, hout, fun sp i hsp => ?_⟩
  cases sp with
  | buf => exact absurd rfl hsp
  | selrom | segrom => rfl

/-- Settles O53: the loop issues the operations that its expansion lists (`renderLoop_eq_issueAll`). -/
theorem renderIsItsOperations : Obligations.RenderIsItsOperations := by
  intro r s lo hi ⟨⟨hlegal, hwf, _⟩, _⟩ hr hlo hhi
  obtain ⟨body, hbody, hlen, hops, _⟩ := renderBody_spec hwf hr
  rw [Panel.lo_eq, Panel.hi_eq, ← hlo, ← hhi] at hlen
  refine ⟨.di :: (body ++ [.ei]), by simp [renderOperations, hbody], ?_, fun i hi' => ?_, render_eq_issueAll hr hbody⟩
  · simp [hlen]
    omega
  · simp only [List.mem_cons, List.mem_append, List.not_mem_nil, or_false] at hi'
    obtain rfl | hmem | rfl := hi'
    · exact ⟨rfl, rfl⟩
    · exact (hops i hmem).hostOp hlegal
    · exact ⟨rfl, rfl⟩

/-- Settles O56: an entry drives its glyph's strokes, which are those of no other digit, and the point's bit is nobody
else's; the digits of a value that fits sum up to it. -/
theorem renderRoundTrip : Obligations.RenderRoundTrip := by
  intro r s t lo hi ⟨⟨_, hwf, _⟩, _⟩ hcan hcur hglyphs hr hrender hlo hhi
  obtain ⟨body, hrender', hwrites⟩ := render_spec hwf hr
  cases hrender'.symm.trans hrender
  obtain ⟨hpanel, _⟩ := panel_entries hwf hr ((Panel.lo_eq s.cfg r.panel).trans hlo.symm)
    ((Panel.hi_eq s.cfg r.panel).trans hhi.symm) hwrites
  refine ⟨fun i hi₁ hi₂ => ?_, fun hv => ?_⟩
  · obtain ⟨e, he, hentry⟩ := hpanel i hi₁ hi₂
    obtain ⟨hd, _⟩ := renderDigit_memRead hwf hr (r.value.toNat / r.base ^ (hi - 1 - i))
    have hg := List.getElem?_eq_getElem (l := s.cfg.glyph) hd
    have hword := hcur.entry_eq hg he (decide (r.dp = some (if s.cfg.dpIndexing = .absolute then i else i - lo)))
    simp only [decide_eq_true_eq] at hword
    refine ⟨_, hentry, ?_, ?_⟩
    · rw [hword]
      exact entryDigit_entry rfl rfl hcan hcur hglyphs hg _
    · have hpoint := hcan.entry_pointPos hcur (s.cfg.glyph[r.value.toNat / r.base ^ (hi - 1 - i) % r.base])
        (decide (r.dp = some (if s.cfg.dpIndexing = .absolute then i else i - lo)))
      obtain ⟨_, hdpbit, _⟩ := hcur
      rw [hword, hdpbit, Ne, and_bitMask_eq_zero_iff, hpoint]
      simp
  · exact (sum_digits hv).symm

/-- Settles O57: what a render writes depends on the tables alone, and the two panels have no position in common. -/
theorem panelsAreIndependent : Obligations.PanelsAreIndependent := by
  intro s v₁ v₂ dp₁ dp₂ b₁ b₂ hinv hr₁ hr₂
  obtain ⟨t, ht, htables, htbuf⟩ := render_render_spec hinv hr₁ hr₂
  obtain ⟨u, hu, hutables, hubuf⟩ := render_render_spec hinv hr₂ hr₁
  refine ⟨t, u, ht, hu, Memory.eq_of_memRead fun sp i => ?_⟩
  cases sp with
  | selrom | segrom => rw [htables _ i (by decide), hutables _ i (by decide)]
  | buf =>
    rw [htbuf, hubuf]
    split_ifs with hsecond hfirst hfirst
    · exact absurd ⟨hfirst, hsecond⟩ (Panel.first_second_disjoint s.cfg i)
    · rfl
    · rfl
    · rfl

/-- Settles O51: the three checks in their order. -/
theorem renderRefusals : Obligations.RenderRefusals := by
  intro r s
  have hrefused {e : Refusal} (h : r.refusal s.cfg = some e) : render r s = .refused e := by simp [render, h]
  have hpanel : r.panel.isHalf = true ↔ r.panel ≠ .whole := by cases r.panel <;> decide
  refine ⟨fun hbase => hrefused (if_pos hbase), fun h₁ h₂ h₃ hvalue => hrefused ?_,
    fun h₁ h₂ h₃ hv₁ hv₂ hwhole hodd => hrefused ?_, ?_, fun e h => hrefused h⟩
  · rw [RenderCall.refusal, if_neg (by omega), if_pos hvalue]
  · rw [RenderCall.refusal, if_neg (by omega), if_neg (by omega), if_pos ⟨hpanel.2 hwhole, hodd⟩]
  · rw [r.accepted_iff, hpanel]
    have hparity : s.cfg.n % 2 = 1 ↔ ¬s.cfg.n % 2 = 0 := by omega
    rw [hparity]
    tauto

/-- Settles O58, by running the render. -/
theorem scenarioShowsZeroZeroPointFourTwo : Obligations.ScenarioShowsZeroZeroPointFourTwo :=
  ⟨_, rfl, rfl⟩

end Sys2Proof.Proofs
end

section
/-! A render at the host port with events between its commands (41_buffer_formatter.md R162, R163; 20_memory.md R73). -/

namespace Sys2Proof.Machine

theorem steps_add (j k : Nat) (s : State) : steps (j + k) s = andThen (steps j s) (steps k) := by
  induction j generalizing s with
  | zero => simp [steps, andThen]
  | succ j ih =>
    rw [Nat.succ_add, steps, steps]
    cases step s with
    | next t => exact ih t
    | fault f => rfl
    | refused r => rfl

/-! ## Counts, as a function of `TCNT` and `TIF` alone (R210, R211) -/

/-- One count of a timer that runs or does not. -/
def timerCount (run : Bool) (p : BitVec 8 × Bool) : BitVec 8 × Bool :=
  if run then (nextCount p.1, tifAfterCount p.1 p.2) else p

/-- The state with other values of `TCNT` and `TIF`. -/
def State.withTimer (s : State) (p : BitVec 8 × Bool) : State := { s with tcnt := p.1, tif := p.2 }

theorem State.counted_eq (s : State) : s.counted = s.withTimer (timerCount s.run (s.tcnt, s.tif)) := by
  obtain hrun | hrun := Bool.eq_false_or_eq_true s.run
  · simp [State.counted_of_run hrun, timerCount, hrun, State.withTimer]
  · rw [State.counted_of_stopped hrun, timerCount, hrun]
    rfl

theorem execAll_tclk (j : Nat) (s : State) :
    execAll (List.replicate j .tclk) s = .next (s.withTimer ((timerCount s.run)^[j] (s.tcnt, s.tif))) := by
  induction j generalizing s with
  | zero => rfl
  | succ j ih =>
    rw [List.replicate_succ, execAll, exec_tclk, andThen, ih, State.counted_eq, Function.iterate_succ_apply]
    rfl

/-! ## The schedule of a render (R73) -/

/-- What a part of a render's commands, with events between them, makes of a masked state: the writes, the counts, and the
schedule that follows. -/
def State.interleaved (s : State) (body : List Instr) (j : Nat) (r : Option HostWord) (rest : List Input) : State :=
  { s with
    mem := { s.mem with buf := bufferAfter body s.mem.buf }, resp := r, inputs := rest
    tcnt := ((timerCount s.run)^[j] (s.tcnt, s.tif)).1, tif := ((timerCount s.run)^[j] (s.tcnt, s.tif)).2 }

/-- A command first, then the others with events between them. -/
theorem State.interleaved_cons (s : State) (i : Instr) (body : List Instr) (j : Nat) (r r' : Option HostWord)
    (rest rest' : List Input) :
    (s.interleaved [i] 0 r' rest').interleaved body j r rest = s.interleaved (i :: body) j r rest := by
  unfold State.interleaved
  rw [bufferAfter_cons i body]
  rfl

/-- A count first, then the commands with the other events between them. -/
theorem State.interleaved_count (s : State) (body : List Instr) (j : Nat) (r : Option HostWord) (rest rest' : List Input) :
    ((s.takeInput .tclk rest').withTimer (timerCount s.run (s.tcnt, s.tif))).interleaved body j r rest =
      s.interleaved body (j + 1) r rest := by
  unfold State.interleaved
  rw [Function.iterate_succ_apply]
  rfl

/-- An encoded operation of the loop, at the head of the schedule, is one step (R98, R152). -/
theorem step_loopOp {s : State} (hlegal : s.cfg.legal = true) (hwf : s.mem.wf s.cfg = true) {i : Instr}
    (hi : LoopOp s.cfg i) {rest : List Input} (hin : s.inputs = encode i :: rest) :
    ∃ r, step s = .next (s.interleaved [i] 0 r rest) := by
  obtain ⟨hfits, _⟩ := hi.hostOp hlegal
  obtain ⟨r, hr⟩ := LoopOp.exec (s := s.takeInput (encode i) rest) hwf hi
  exact ⟨r, step_of_exec_next hin (decodeInput_encode hfits) hr⟩

/-- Under the mask the commands of a loop do what they do without the events between them, and the events only count. -/
theorem steps_interleaved {s : State} {body : List Instr} {mid rest : List Input} (hlegal : s.cfg.legal = true)
    (hwf : s.mem.wf s.cfg = true) (hmask : s.mask = true) (hops : ∀ i ∈ body, LoopOp s.cfg i)
    (hmid : mid.filter Input.isCommand = body.map encode) (hin : s.inputs = mid ++ rest) :
    ∃ r, steps mid.length s = .next (s.interleaved body (mid.count .tclk) r rest) := by
  induction mid generalizing s body with
  | nil =>
    obtain rfl : body = [] := by simpa [eq_comm] using hmid
    obtain rfl : s.inputs = rest := hin
    exact ⟨s.resp, rfl⟩
  | cons x mid ih =>
    cases x with
    | tick =>
      have hstep : step s = .next { s with inputs := mid ++ rest } :=
        step_of_exec_next hin rfl (exec_tick_of_not_irq (State.irq_of_mask hmask))
      obtain ⟨r, hr⟩ := ih (s := { s with inputs := mid ++ rest }) (body := body) hlegal hwf hmask hops hmid rfl
      exact ⟨r, andThen_next.2 ⟨_, hstep, hr⟩⟩
    | tclk =>
      have hstep : step s = .next ((s.takeInput .tclk (mid ++ rest)).withTimer (timerCount s.run (s.tcnt, s.tif))) := by
        refine step_of_exec_next hin rfl ?_
        rw [exec_tclk, State.counted_eq]
        rfl
      obtain ⟨r, hr⟩ := ih (s := (s.takeInput .tclk (mid ++ rest)).withTimer (timerCount s.run (s.tcnt, s.tif)))
        (body := body) hlegal hwf hmask hops hmid rfl
      refine ⟨r, andThen_next.2 ⟨_, hstep, ?_⟩⟩
      rw [hr, List.count_cons_self, State.interleaved_count]
    | command w =>
      cases body with
      | nil => simp [Input.isCommand] at hmid
      | cons i body =>
        rw [List.filter_cons_of_pos rfl, List.map_cons, List.cons.injEq] at hmid
        obtain ⟨hi, hmid⟩ := hmid
        obtain ⟨hop, hops⟩ := List.forall_mem_cons.1 hops
        obtain ⟨ρ, hstep⟩ := step_loopOp hlegal hwf hop (rest := mid ++ rest) (hi ▸ hin)
        obtain ⟨r, hr⟩ := ih (s := s.interleaved [i] 0 ρ (mid ++ rest)) hlegal (State.written_wf hwf [i] ρ) hmask hops
          hmid rfl
        refine ⟨r, andThen_next.2 ⟨_, hstep, ?_⟩⟩
        have hcount : (Input.command w :: mid).count Input.tclk = mid.count Input.tclk :=
          List.count_cons_of_ne (by simp)
        rw [hr, hcount, State.interleaved_cons]

/-- `DI`, the commands with events between them, `EI`: the writes of the commands, the counts, and nothing else (R162). -/
theorem steps_section {s : State} {body : List Instr} {mid rest : List Input} (hlegal : s.cfg.legal = true)
    (hwf : s.mem.wf s.cfg = true) (hops : ∀ i ∈ body, LoopOp s.cfg i)
    (hmid : mid.filter Input.isCommand = body.map encode) (hin : s.inputs = encode .di :: (mid ++ encode .ei :: rest)) :
    steps (mid.length + 2) s =
      .next { s.interleaved body (mid.count .tclk) none rest with mask := false } := by
  have henter : step s = .next { s.entered with inputs := mid ++ encode .ei :: rest } :=
    step_of_exec_next hin (decodeInput_encode rfl) rfl
  obtain ⟨ρ, hbody⟩ := steps_interleaved (s := { s.entered with inputs := mid ++ encode .ei :: rest }) hlegal hwf rfl hops
    hmid rfl
  have hleave : step (({ s.entered with inputs := mid ++ encode .ei :: rest } : State).interleaved body (mid.count .tclk) ρ
      (encode .ei :: rest)) = .next { s.interleaved body (mid.count .tclk) none rest with mask := false } :=
    step_of_exec_next (rest := rest) rfl (decodeInput_encode rfl) rfl
  have hcount : mid.length + 2 = 1 + (mid.length + 1) := by omega
  rw [hcount, steps_add 1, steps, henter, andThen, steps, andThen, steps_add, hbody, andThen, steps, hleave]
  rfl

end Sys2Proof.Machine

namespace Sys2Proof.Proofs

open Sys2Proof.Machine

/-- Settles O55: under the mask of the section an offered `TICK` does not occur and a count touches nothing that the commands
read or write (`steps_interleaved`). -/
theorem renderIsAtomicUnderEvents : Obligations.RenderIsAtomicUnderEvents := by
  intro r s body mid rest lo hi ⟨⟨hlegal, hwf, _⟩, _⟩ hr hbody hmid hin hlo hhi
  obtain ⟨body', hbody', _, hops, hwrites⟩ := renderBody_spec hwf hr
  obtain rfl := Option.some.inj (hbody'.symm.trans hbody)
  obtain ⟨hpanel, hout⟩ := panel_entries
    (t := { s.interleaved body' (mid.count .tclk) none rest with mask := false }) hwf hr
    ((Panel.lo_eq s.cfg r.panel).trans hlo.symm) ((Panel.hi_eq s.cfg r.panel).trans hhi.symm) hwrites
  refine ⟨_, _, steps_section hlegal hwf hops hmid hin, execAll_tclk _ s, rfl, hpanel, hout, fun sp i hsp => ?_⟩
  cases sp with
  | buf => exact absurd rfl hsp
  | selrom | segrom => rfl

end Sys2Proof.Proofs
end

section
/-! What is observed over a run (00_scope.md R11; 42_scan_refresh.md R190, R194): the latched words are those of the
invocations, and over `N` of them every position is shown once. -/

namespace Sys2Proof.Machine

/-! ## The latched words of a line trace (R11 b) -/

theorem latchedWords_append (w : Wires) (es fs : List LineEvent) :
    latchedWords w (es ++ fs) = latchedWords w es ++ latchedWords (w.replay es) fs := by
  induction es generalizing w with
  | nil => rfl
  | cons e es ih =>
    simp only [List.cons_append, latchedWords, ih, Wires.replay_cons]
    split <;> rfl

theorem latchedWords_of_no_latch (w : Wires) {es : List LineEvent} (h : ∀ e ∈ es, e.line ≠ .latch) :
    latchedWords w es = [] := by
  induction es generalizing w with
  | nil => rfl
  | cons e es ih =>
    obtain ⟨he, hes⟩ := List.forall_mem_cons.1 h
    simp [latchedWords, he, ih _ hes]

/-- A `TICK` latches its word, once (R190). -/
theorem latchedWords_tickTrace {w : Wires} (hsclk : w.sclk = false) (word : Word) :
    latchedWords w (tickTrace word) = [word] := by
  have hlow : (w.drive ⟨.latch, false⟩).sclk = false := hsclk
  have hfall : latchedWords w (tickTrace word) =
      latchedWords (w.drive ⟨.latch, false⟩) (bitTrace word 16 ++ [⟨.latch, true⟩, ⟨.latch, false⟩]) := by
    simp [tickTrace, latchedWords]
  rw [hfall, latchedWords_append, latchedWords_of_no_latch _ (bitTrace_line_ne_latch word 16), List.nil_append,
    Wires.replay_bitTrace_sixteen hlow]
  simp [latchedWords, Wires.drive]

/-! ## One step (R180) -/

theorem State.ticksNow_iff (s : State) : s.ticksNow = true ↔ s.inputs.head? = some .tick ∧ s.irq = true := by
  simp [State.ticksNow]

/-- The word that an invocation started in a state sends (R183). -/
def State.SendsWord (s : State) (q : Word) : Prop :=
  ∃ m e, s.memRead .selrom s.cursor = some m ∧ s.memRead .buf s.cursor = some e ∧ q = m ||| ~~~e

/-- An invocation: its word is sent and the cursor advances. -/
theorem step_of_ticksNow {s t : State} (hnow : s.ticksNow = true) (hshaped : s.Shaped) (h : step s = .next t) :
    ∃ q, s.SendsWord q ∧ t.trace = s.trace ++ tickTrace q ∧ t.wires = s.wires.replay (tickTrace q) ∧
      t.cursor = (s.cursor + 1) % s.cfg.n := by
  obtain ⟨hhead, hirq⟩ := s.ticksNow_iff.1 hnow
  obtain ⟨rest, hin⟩ : ∃ rest, s.inputs = .tick :: rest := List.head?_eq_some_iff.1 hhead
  obtain ⟨u, hu⟩ := exec_tick_of_shaped (s := s.takeInput .tick rest) hshaped
  cases (step_of_exec_next hin rfl hu).symm.trans h
  obtain ⟨m, e, hm, he, rfl⟩ := (exec_tick_next_of_irq (s := s.takeInput .tick rest) hirq).1 hu
  exact ⟨m ||| ~~~e, ⟨m, e, hm, he, rfl⟩, rfl, rfl, rfl⟩

/-- Without an invocation lines, chain, trace and cursor stand still. -/
theorem step_of_not_ticksNow {s t : State} (hnow : s.ticksNow = false) (h : step s = .next t) :
    t.trace = s.trace ∧ t.wires = s.wires ∧ t.cursor = s.cursor := by
  obtain ⟨_, rfl⟩ | ⟨x, rest, hin, rfl | ⟨i, hdec, hexec⟩⟩ := step_next_cases h
  · exact ⟨rfl, rfl, rfl⟩
  · exact ⟨rfl, rfl, rfl⟩
  · by_cases htick : i = .tick
    · subst htick
      obtain ⟨_, rfl⟩ := decodeInput_ok hdec
      have hirq : (s.takeInput (encode .tick) rest).irq = false := by
        rw [← Bool.not_eq_true]
        intro hirq
        exact absurd (s.ticksNow_iff.2 ⟨by rw [hin]; rfl, hirq⟩) (by simp [hnow])
      cases (exec_tick_of_not_irq hirq).symm.trans hexec
      exact ⟨rfl, rfl, rfl⟩
    · obtain ⟨_, _, _, _, hscan, _⟩ := Proofs.onlyTheOwnerWrites _ _ _ hexec
      obtain ⟨hcursor, _, _, _, _, hwires, htrace⟩ := hscan htick
      exact ⟨htrace, hwires, hcursor⟩

theorem ticking_succ {s t : State} (h : step s = .next t) (k : Nat) :
    ticking (k + 1) s = if s.ticksNow then s :: ticking k t else ticking k t := by
  simp only [ticking, h]

/-! ## Any number of steps (R190) -/

/-- From one state to another, some events and some invocations: each has sent its word, one after the other along the
positions. -/
structure State.Observed (s t : State) (es : List LineEvent) (us : List State) : Prop where
  trace_eq : t.trace = s.trace ++ es
  length_eq : es.length = 51 * us.length
  words : List.Forall₂ (fun q u => State.SendsWord u q) (latchedWords s.wires es) us
  cursors : ∀ (j : Nat) (u : State), us[j]? = some u → u.irq = true ∧ u.cursor = (s.cursor + j) % s.cfg.n
  q_eq : t.wires.q = (latchedWords s.wires es).getLast?.getD s.wires.q

/-- Each of the invocations has sent a word. -/
theorem exists_sendsWord {qs : List Word} {us : List State} (h : List.Forall₂ (fun q u => State.SendsWord u q) qs us)
    {u : State} (hu : u ∈ us) : ∃ q, u.SendsWord q := by
  induction h with
  | nil => cases hu
  | cons hsent _ ih =>
    obtain rfl | hmem := List.mem_cons.1 hu
    · exact ⟨_, hsent⟩
    · exact ih hmem

theorem steps_observed {k : Nat} {s t : State} (hinv : s.Inv) (h : steps k s = .next t) :
    ∃ es, s.Observed t es (ticking k s) := by
  induction k generalizing s with
  | zero =>
    cases h
    exact ⟨[], by simp, rfl, .nil, by simp [ticking], rfl⟩
  | succ k ih =>
    obtain ⟨u, hstep, hrest⟩ := andThen_next.1 h
    obtain ⟨es, htrace, hlen, hwords, hcursors, hq⟩ := ih (step_inv hinv hstep) hrest
    obtain ⟨hshaped, ⟨_, _, _, hsclk, _⟩, _⟩ := hinv
    rw [step_cfg hstep] at hcursors
    rw [ticking_succ hstep]
    cases hnow : s.ticksNow with
    | false =>
      obtain ⟨htrace', hwires', hcursor'⟩ := step_of_not_ticksNow hnow hstep
      rw [hwires'] at hwords hq
      rw [hcursor'] at hcursors
      exact ⟨es, htrace.trans (congrArg (· ++ es) htrace'), hlen, hwords, hcursors, hq⟩
    | true =>
      obtain ⟨q, hsent, htrace', hwires', hcursor'⟩ := step_of_ticksNow hnow hshaped hstep
      have hlatched : latchedWords s.wires (tickTrace q ++ es) = q :: latchedWords u.wires es := by
        rw [latchedWords_append, latchedWords_tickTrace hsclk, hwires']
        rfl
      have hq' : u.wires.q = q := by rw [hwires', Wires.replay_tickTrace hsclk]
      refine ⟨tickTrace q ++ es, ?_, ?_, ?_, fun j v hj => ?_, ?_⟩
      · rw [htrace, htrace', List.append_assoc]
      · simp only [List.length_append, tickTrace_length, hlen, if_true, List.length_cons]
        omega
      · rw [hlatched]
        exact .cons hsent hwords
      · cases j with
        | zero =>
          obtain rfl : s = v := by simpa using hj
          obtain ⟨_, _, hcursor⟩ := hshaped
          exact ⟨(s.ticksNow_iff.1 hnow).2, (Nat.mod_eq_of_lt hcursor).symm⟩
        | succ j =>
          obtain ⟨hirq, hv⟩ := hcursors j v (by simpa using hj)
          refine ⟨hirq, ?_⟩
          rw [hv, hcursor', Nat.mod_add_mod, Nat.add_assoc, Nat.add_comm 1]
      · rw [hq, hq', hlatched, List.getLast?_cons]
        rfl

/-! ## One cycle of positions (R194) -/

/-- What is kept from one state to the next holds in every invocation. -/
theorem ticking_keeps {P : State → Prop} {allowed : Instr → Prop}
    (htake : ∀ u x rest, P u → P (u.takeInput x rest))
    (hexec : ∀ i u v, allowed i → P u → exec i u = .next v → P v) {k : Nat} {s : State} (hs : P s)
    (hallowed : ∀ x ∈ s.inputs.take k, ∀ i, decodeInput x = .ok i → allowed i) : ∀ u ∈ ticking k s, P u := by
  induction k generalizing s with
  | zero => simp [ticking]
  | succ k ih =>
    obtain ⟨t, hstep⟩ := step_next s
    have ht : P t := step_keeps htake hexec hs
      (fun x hx => hallowed x (List.take_subset_take_left _ (Nat.succ_le_succ (Nat.zero_le k)) hx)) hstep
    have hrest := ih ht fun x hx => hallowed x (mem_take_of_step hstep hx)
    rw [ticking_succ hstep]
    split
    · exact List.forall_mem_cons.2 ⟨hs, hrest⟩
    · exact hrest

/-- Of elements with different keys one alone has a given key. -/
theorem filter_key_eq_singleton {α : Type} {key : α → Nat} {xs : List α} {x : α} (hnodup : (xs.map key).Nodup)
    (hx : x ∈ xs) : xs.filter (fun y => decide (key y = key x)) = [x] := by
  induction xs with
  | nil => cases hx
  | cons y ys ih =>
    rw [List.map_cons, List.nodup_cons] at hnodup
    obtain ⟨hy, hys⟩ := hnodup
    obtain rfl | hmem := List.mem_cons.1 hx
    · have hnone : ys.filter (fun z => decide (key z = key x)) = [] := by
        rw [List.filter_eq_nil_iff]
        intro z hz hkey
        exact hy (List.mem_map.2 ⟨z, hz, of_decide_eq_true hkey⟩)
      rw [List.filter_cons_of_pos (by simp), hnone]
    · have hne : key y ≠ key x := fun heq => hy (List.mem_map.2 ⟨x, hmem, heq.symm⟩)
      rw [List.filter_cons_of_neg (by simpa using hne), ih hys hmem]

/-- `n` steps around a cycle of `n` meet each of its places. -/
theorem exists_add_mod_eq {n c p : Nat} (hc : c < n) (hp : p < n) : ∃ j, j < n ∧ (c + j) % n = p := by
  refine ⟨(p + (n - c)) % n, Nat.mod_lt _ (Nat.zero_lt_of_lt hp), ?_⟩
  have hround : c + (p + (n - c)) = p + n := by omega
  rw [Nat.add_mod_mod, hround, Nat.add_mod_right, Nat.mod_eq_of_lt hp]

/-- Over `N` invocations whose cursors follow one another each position has exactly one. -/
theorem ticks_at_position {us : List State} {n c p : Nat} (hc : c < n) (hp : p < n) (hlen : us.length = n)
    (hcursors : ∀ (j : Nat) (u : State), us[j]? = some u → u.cursor = (c + j) % n) :
    ∃ u ∈ us, u.cursor = p ∧ us.filter (fun v => decide (v.cursor = p)) = [u] := by
  have hmap : us.map State.cursor = (List.range n).map fun j => (c + j) % n := by
    refine List.ext_getElem (by simp [hlen]) fun j hj _ => ?_
    have hj' : j < us.length := by simpa using hj
    simpa using hcursors j us[j] (List.getElem?_eq_getElem hj')
  have hnodup : (us.map State.cursor).Nodup := by
    rw [hmap]
    refine List.Nodup.map_on (fun i hi j hj heq => ?_) List.nodup_range
    have hmod : i ≡ j [MOD n] := Nat.ModEq.add_left_cancel' c heq
    exact hmod.eq_of_lt_of_lt (List.mem_range.1 hi) (List.mem_range.1 hj)
  obtain ⟨j, hj, hjp⟩ := exists_add_mod_eq hc hp
  have hget := List.getElem?_eq_getElem (l := us) (hlen.symm ▸ hj)
  have hmem : us[j]'(hlen.symm ▸ hj) ∈ us := List.getElem_mem _
  have hcursor : (us[j]'(hlen.symm ▸ hj)).cursor = p := (hcursors j _ hget).trans hjp
  refine ⟨_, hmem, hcursor, ?_⟩
  rw [← hcursor]
  exact filter_key_eq_singleton hnodup hmem

/-- The configuration, the masks and the wiring of an earlier state, and a buffer whose entries hold its segment mask. -/
structure State.ShowsCleanly (s u : State) : Prop where
  cfg_eq : u.cfg = s.cfg
  selrom_eq : u.mem.selrom = s.mem.selrom
  stkpos_eq : u.stkpos = s.stkpos
  masked : ∀ (p : Nat) (e : Word), u.memRead .buf p = some e → e &&& s.segmask = s.segmask

/-- The operations under which this remains so. -/
def Instr.KeepsClean (segmask : Word) (i : Instr) : Prop :=
  (∀ p m, i ≠ .cfgsel p m) ∧ (∀ sel b, i ≠ .cfgstk sel b) ∧ ∀ p w, i = .wrbuf p w → w &&& segmask = segmask

theorem State.ShowsCleanly.takeInput {s u : State} (h : s.ShowsCleanly u) (x : Input) (rest : List Input) :
    s.ShowsCleanly (u.takeInput x rest) :=
  ⟨h.cfg_eq, h.selrom_eq, h.stkpos_eq, h.masked⟩

theorem exec_showsCleanly {i : Instr} {s u v : State} (hi : Instr.KeepsClean s.segmask i) (hu : s.ShowsCleanly u)
    (h : exec i u = .next v) : s.ShowsCleanly v := by
  obtain ⟨hcfgsel, hcfgstk, hwrbuf⟩ := hi
  obtain ⟨hcfg, hsel, hstk, hmasked⟩ := hu
  obtain ⟨hsel', hstk', _⟩ := Proofs.onlyTheOwnerWrites i u v h
  refine ⟨(exec_cfg h).trans hcfg, (hsel' hcfgsel).trans hsel, (hstk' hcfgstk).trans hstk, fun p e he => ?_⟩
  by_cases hwrites : ∃ w, i = .wrbuf p w
  · obtain ⟨w, rfl⟩ := hwrites
    obtain ⟨_, hlen, rfl⟩ := exec_wrbuf_next.1 h
    rw [State.memRead_storeElement_same u .buf p w hlen] at he
    obtain rfl := Option.some.inj he
    exact hwrbuf p w rfl
  · rw [exec_memRead_buf_other (not_exists.1 hwrites) h] at he
    exact hmasked p e he

/-- Under the same masks and wiring a word shows the same. -/
theorem State.ShowsCleanly.shownBy_eq {s u : State} (h : s.ShowsCleanly u) (q : Word) (p : Nat) :
    shownBy u q p = shownBy s q p := by
  rw [shownBy, shownBy, enabledBy_congr h.selrom_eq, strokesDriven, strokesDriven, pointLevel, pointLevel, h.stkpos_eq]

/-- The word of such an invocation shows its entry at its position, and nothing anywhere else. -/
theorem shownBy_sendsWord {s u : State} {q : Word} (hwf : s.mem.wf s.cfg = true) (hcan : s.Canonical)
    (hmask : s.segmask = orAll s.mem.selrom) (hu : s.ShowsCleanly u) (hsent : u.SendsWord q) {p : Nat} (hp : p < s.cfg.n) :
    shownBy s q p =
      if u.cursor = p then some (s.shownEntry ((u.memRead .buf u.cursor).getD 0#16)) else none := by
  obtain ⟨m, e, hm, he, rfl⟩ := hsent
  have hm' : s.memRead .selrom u.cursor = some m := by
    rw [← hm, State.memRead, State.memRead]
    exact congrArg (·[u.cursor]?) hu.selrom_eq.symm
  have hmem := mem_selrom_of_memRead hm'
  have hmasked := hu.masked u.cursor e he
  rw [hmask] at hmasked
  have hselect := word_and_segmask_of_masked (and_orAll_of_mem hmem) hmasked
  rw [hcan.shownBy_word hmem, (hcan.select_bits_iff hwf hm' _).1 hselect p hp, he]
  simp [eq_comm]

/-- What the words of some invocations show at a position: the entries of the invocations there. -/
theorem filterMap_of_forall₂ {α β γ : Type} {f : α → Option γ} {here : β → Bool} {g : β → γ} {R : α → β → Prop}
    {qs : List α} {us : List β} (hqs : List.Forall₂ R qs us)
    (h : ∀ q u, u ∈ us → R q u → f q = if here u then some (g u) else none) : qs.filterMap f = (us.filter here).map g := by
  induction hqs with
  | nil => rfl
  | @cons q u qs us hq _ ih =>
    have htail := ih fun q u hu => h q u (List.mem_cons_of_mem _ hu)
    have hhead := h q u List.mem_cons_self hq
    cases hhere : here u <;> simp [hhead, hhere, htail]

end Sys2Proof.Machine

namespace Sys2Proof.Proofs

open Sys2Proof.Machine

/-- Settles O59: step by step (`steps_observed`): an invocation emits one trace of its word, which latches that word alone,
and nothing else emits or moves the cursor. -/
theorem latchedWordsAreThoseOfTheTicks : Obligations.LatchedWordsAreThoseOfTheTicks := by
  intro k s t hinv h
  obtain ⟨es, htrace, hlen, hwords, hcursors, hq⟩ := steps_observed hinv h
  exact ⟨es, htrace, hlen, hwords, hcursors, hq⟩

/-- Settles O60: the cursors of `N` invocations are the `N` positions, each once, and a word shows its entry at the position
of its invocation alone. -/
theorem everyPositionIsShownOncePerCycle : Obligations.EveryPositionIsShownOncePerCycle := by
  intro k s t hinv hcan hmask hmasked hinputs hlen h
  obtain ⟨es, htrace, _, hwords, hcursors, _⟩ := steps_observed hinv h
  obtain ⟨⟨_, hwf, hcursor⟩, _⟩ := hinv
  have hself : s.ShowsCleanly s := ⟨rfl, rfl, rfl, hmasked⟩
  have hclean : s.ShowsCleanly t := steps_keeps (allowed := Instr.KeepsClean s.segmask)
    (fun _ x rest hu => hu.takeInput x rest) (fun _ _ _ hi hu hexec => exec_showsCleanly hi hu hexec) hself hinputs h
  have hticks : ∀ u ∈ ticking k s, s.ShowsCleanly u := ticking_keeps (allowed := Instr.KeepsClean s.segmask)
    (fun _ x rest hu => hu.takeInput x rest) (fun _ _ _ hi hu hexec => exec_showsCleanly hi hu hexec) hself hinputs
  refine ⟨es, htrace, fun p hp => ?_⟩
  obtain ⟨u, hmem, rfl, hfilter⟩ := ticks_at_position hcursor hp hlen fun j u hj => (hcursors j u hj).2
  have hu := hticks u hmem
  obtain ⟨_, _, e, _, he, _⟩ := exists_sendsWord hwords hmem
  have hshown : shownDuring t u.cursor (latchedWords s.wires es) = [s.shownEntry e] := by
    have hall : shownDuring t u.cursor (latchedWords s.wires es) =
        ((ticking k s).filter fun v => decide (v.cursor = u.cursor)).map
          fun v => s.shownEntry ((v.memRead .buf v.cursor).getD 0#16) := by
      refine filterMap_of_forall₂ hwords fun q v hv hsent => ?_
      rw [hclean.shownBy_eq, shownBy_sendsWord hwf hcan hmask (hticks v hv) hsent hp]
      simp
    rw [hall, hfilter, List.map_singleton, he]
    rfl
  exact ⟨u, e, hfilter, he, hshown, by rw [lastShown, hshown]; rfl⟩

end Sys2Proof.Proofs
end
